-- ==== Sys2Proof/Word.lean ====
section
/-! DEFINITION. The widths of the engine's values (00_scope.md R6, R7). -/

namespace Sys2Proof

/-- A 32-bit register, stream word or image address (`ACC_BITS`, `ADDR_BITS`; 00_scope.md R6). -/
abbrev Word := BitVec 32

/-- One byte of the image (20_memory.md R62). -/
abbrev Byte := BitVec 8

/-- One CRC lane (`LANE_BITS`; 00_scope.md R6). -/
abbrev Lane := BitVec 16

end Sys2Proof
end

