-- ==== Sys2Proof/Config.lean ====
section
/-! DEFINITION. The engine's fixed parameters (00_scope.md R6), and the types of the platform's open
ones. The two OPEN parameters of R6, `REG_BASE` and `MEM_ERR`, and the platform's effects of reading
(20_memory.md R68), take their values in State (log entries 2, 3 and 11), so that a claim about every state is a claim about every platform. -/

namespace Sys2Proof

/-- `CRC_INIT`, the start value of every lane (00_scope.md R6; 92_eei_decisions.md D6). -/
abbrev Config.crcInit : Lane := 0x0000

/-- `POLY`, the constant of the reflected CRC (00_scope.md R6). -/
abbrev Config.crcPoly : Lane := 0xA001

/-- `WORD_BYTES`, the bytes of a stream word (00_scope.md R6). -/
abbrev Config.wordBytes : Word := 4

/-- `LENFIELD_OFF`, the image offset of the length field (00_scope.md R6). -/
abbrev Config.lenFieldOff : Word := 4

/-- The bytes of the trailer, `TRAILER_WORDS` words of `WORD_BYTES` bytes (00_scope.md R6). -/
abbrev Config.trailerBytes : Word := 12

/-- `MIN_LEN_VERIFY` (00_scope.md R6; 60_exceptions.md R242). -/
abbrev Config.minLenVerify : Word := 12

/-- `MIN_LEN_PATCH` (00_scope.md R6; 60_exceptions.md R242). -/
abbrev Config.minLenPatch : Word := 20

/-- The bytes of the register window (20_memory.md R60). -/
abbrev Config.regWindowBytes : Nat := 64

/-- The size of image memory in bytes (20_memory.md R60). -/
abbrev Config.imageSpaceBytes : Nat := 2 ^ 32

/-- What a byte of image memory reads as that nothing has written and no list names.
DESIGN CHOICE, unsafe (log entry 1): 20_memory.md R71 says "the initial contents", which are the
platform's. -/
def Config.unlistedByte : Byte := 0x00

/-- The direction of an access on the memory port (20_memory.md R70). -/
inductive Dir where
  | read
  | write
  deriving DecidableEq, Repr

/-- A region of image memory in which `MEM_ERR` holds for accesses of one direction: every address
from `lo` to `hi`, both included (20_memory.md R70; log entry 3). -/
structure ErrRegion where
  lo  : Word
  hi  : Word
  dir : Dir
  deriving DecidableEq, Repr

/-- What a read of an address from `lo` to `hi`, both included, does beside returning the bytes: the
platform writes the listed bytes of image memory (20_memory.md R68; 93_implementation_defined.md U10; log
entry 11). -/
structure ReadEffect where
  lo    : Word
  hi    : Word
  cells : List (Word × Byte)
  deriving DecidableEq, Repr

end Sys2Proof
end

