-- ==== Sys2Proof/Syntax.lean ====
section
/-! DEFINITION. What the engine can be told: its seven commands (30_encoding.md R102), the register
map's names (10_state.md R41), and the events that the host and the platform send it
(20_memory.md R71, R77). -/

namespace Sys2Proof

/-- The commands of the opcode map (30_encoding.md R102). None has an operand field (R101). -/
inductive Instr where
  /-- 40_control.md R120 -/
  | nop
  /-- 40_control.md R121 -/
  | clear
  /-- 41_feed.md R134 -/
  | feed
  /-- 41_feed.md R135 -/
  | feedcrc
  /-- 42_patch_writer.md R170 -/
  | latch
  /-- 43_sequencer.md R191 -/
  | verify
  /-- 43_sequencer.md R192 -/
  | patch
  deriving DecidableEq, Repr

/-- The sixteen places of the register window (10_state.md R41). -/
inductive Reg where
  | cmd | data | base | len
  | status | acc | lane01 | lane23
  | count | pck | plo | phi
  | readck | faddr | reserved38 | reserved3C
  deriving DecidableEq, Repr

/-- One event of the total order of 20_memory.md R71 (log entry 4). -/
inductive Event where
  /-- The host reads `width` bits of the register port at `addr` (10_state.md R45). -/
  | regRead (addr width : Nat)
  /-- The host writes `width` bits of the register port at `addr` (10_state.md R39, R42 to R44). -/
  | regWrite (addr width : Nat) (v : Word)
  /-- The host, or any agent outside the engine, reads `n` bytes of image memory from `addr` on
  (20_memory.md R74). -/
  | memRead (addr : Word) (n : Nat)
  /-- The host, or any agent outside the engine, writes the listed bytes of image memory
  (20_memory.md R74; log entry 14). -/
  | memWrite (cells : List (Word × Byte))
  /-- The host polls `STATUS` until BUSY reads 0 (30_encoding.md R105; log entry 6). -/
  | wait
  /-- The engine takes its enabled step, if it has one (43_sequencer.md R206). -/
  | engine
  /-- Reset is asserted (70_reset_and_hazards.md R280). -/
  | reset
  /-- From here on the platform's `MEM_ERR` holds in these regions (20_memory.md R70; log entry 3). -/
  | setMemErr (regions : List ErrRegion)
  /-- From here on reads of image memory have these effects (20_memory.md R68; log entry 11). -/
  | setReadEffects (effects : List ReadEffect)
  deriving DecidableEq, Repr

/-- The hardware operations of the host-program notation (30_encoding.md R105). `EXPECT` is a test's
assertion and no operation. -/
inductive HostOp where
  | wr (r : Reg) (v : Word)
  | rd (r : Reg)
  | cmd (i : Instr)
  | wait
  | wrm (addr : Word) (v : Word)
  deriving DecidableEq, Repr

end Sys2Proof
end

