-- ==== Sys2Proof/WellFormed.lean ====
section
/-! DEFINITION. Which terms are well formed: command words (30_encoding.md R100, R102), register
accesses (20_memory.md R61), and events. -/

namespace Sys2Proof

/-- Every command is well formed: none has a field (30_encoding.md R101). -/
def Instr.wf : Instr → Bool
  | .nop => true
  | .clear => true
  | .feed => true
  | .feedcrc => true
  | .latch => true
  | .verify => true
  | .patch => true

/-- A command word is legal when it is exactly one of the seven codes (30_encoding.md R102: "a command
word is exactly `zext_32(OP)`"). -/
def commandWordWf (c : Word) : Bool := c.toNat < 7

/-- A register access is well formed when it is 32 bits wide, at an offset inside the window that is a
multiple of 4 (20_memory.md R61). -/
def registerAccessWf (regBase addr width : Nat) : Bool :=
  regBase ≤ addr && addr < regBase + Config.regWindowBytes && width == 32 && (addr - regBase) % 4 == 0

/-- An event is well formed when the register access it makes is; the others always are. -/
def Event.wf (regBase : Nat) : Event → Bool
  | .regRead addr width => registerAccessWf regBase addr width
  | .regWrite addr width _ => registerAccessWf regBase addr width
  | .memRead _ _ => true
  | .memWrite _ => true
  | .wait => true
  | .engine => true
  | .reset => true
  | .setMemErr _ => true
  | .setReadEffects _ => true

end Sys2Proof
end

