-- ==== Sys2Proof/Decode.lean ====
section
/-! DEFINITION. Decoding a command word, total on every word and rejecting by name
(30_encoding.md R100 to R104), and encoding a command from the same map. -/

namespace Sys2Proof

/-- Why a word is no command (30_encoding.md R103; both are ILLEGAL_CMD to the host). -/
inductive DecodeError where
  /-- `RSV`, bits 31:4, is not 0. -/
  | reservedBits
  /-- `OP`, bits 3:0, is one of 0x7 to 0xF. -/
  | reservedOpcode
  deriving DecidableEq, Repr

/-- The field `OP`, bits 3:0 (30_encoding.md R100). -/
def opField (c : Word) : BitVec 4 := c.extractLsb' 0 4

/-- The field `RSV`, bits 31:4 (30_encoding.md R100). -/
def rsvField (c : Word) : BitVec 28 := c.extractLsb' 4 28

/-- The opcode map read from `OP` (30_encoding.md R102, R104). -/
def decodeOp (op : BitVec 4) : Except DecodeError Instr :=
  match op.toNat with
  | 0 => .ok .nop
  | 1 => .ok .clear
  | 2 => .ok .feed
  | 3 => .ok .feedcrc
  | 4 => .ok .latch
  | 5 => .ok .verify
  | 6 => .ok .patch
  | _ => .error .reservedOpcode

/-- Decoding a command word (30_encoding.md R103). -/
def decode (c : Word) : Except DecodeError Instr :=
  if rsvField c ≠ 0 then .error .reservedBits else decodeOp (opField c)

/-- The code `OP` of a command (30_encoding.md R102). -/
def opcode : Instr → BitVec 4
  | .nop => 0x0
  | .clear => 0x1
  | .feed => 0x2
  | .feedcrc => 0x3
  | .latch => 0x4
  | .verify => 0x5
  | .patch => 0x6

/-- The word of a command: `zext_32(OP)` (30_encoding.md R102). -/
def encode (i : Instr) : Word := (opcode i).setWidth 32

/-- The command the decoder reads from `nbits` bits of value `w`, bit 0 the least significant; the bits
above `nbits` are 0. A command is one 32-bit word and no other length exists (30_encoding.md R100). -/
def decodeTableWord (nbits w : Nat) : Option Instr :=
  if nbits ≤ 32 then (decode (BitVec.ofNat 32 (w % 2 ^ nbits))).toOption else none

end Sys2Proof
end

