-- ==== Sys2Proof/Machine/State.lean ====
section
/-! DEFINITION. Everything the spec gives the machine (10_state.md R20 to R49), the platform's image
memory and open parameters (20_memory.md R62, R70; 00_scope.md R6), the events still to come
(20_memory.md R71), and the state after reset. -/

namespace Sys2Proof.Machine

/-- The codes of `STATUS.ERR` (60_exceptions.md R240). Codes 5 to 15 are never produced
(93_implementation_defined.md U4; log entry 9). -/
inductive ErrCode where
  | none
  | illegalCmd
  | badLength
  | badRange
  | memFault
  deriving DecidableEq, Repr

/-- The values of `STATUS.LAST` (10_state.md R35). The value 3 is never produced
(93_implementation_defined.md U5; log entry 9). -/
inductive SeqKind where
  | none
  | verify
  | patch
  deriving DecidableEq, Repr

/-- The sequencer's position (10_state.md R48; 43_sequencer.md R190). -/
inductive Phase where
  | idle
  | body
  | rdck
  | crclo
  | crchi
  | lenw
  | wck
  | wlo
  | whi
  deriving DecidableEq, Repr

/-- The fields of `STATUS` that hold something (10_state.md R28); its word is `Status.word`. -/
structure Status where
  busy  : Bool
  done  : Bool
  ckOk  : Bool
  crcOk : Bool
  ovr   : Bool
  err   : ErrCode
  last  : SeqKind
  deriving DecidableEq, Repr

/-- The four CRC lanes (10_state.md R23). -/
structure Lanes where
  l0 : Lane
  l1 : Lane
  l2 : Lane
  l3 : Lane
  deriving DecidableEq, Repr

/-- What the host's last read returned. The model's own (log entry 7). -/
inductive Reply where
  | none
  | reg (v : Word)
  | mem (bytes : List Byte)
  deriving DecidableEq, Repr

/-- One 4-byte access on the image memory port (20_memory.md R66). -/
inductive Access where
  | read (a : Word)
  | write (a : Word) (v : Word)
  deriving DecidableEq, Repr

/-- Image memory (20_memory.md R62): the bytes that differ from `Config.unlistedByte`, addresses
strictly rising. `Memory.wf` says that form. -/
abbrev Memory := List Host.Cell

/-- The machine. Fields up to `idx` are the engine's (10_state.md R20); `mem`, `memErr`,
`readEffects` and `regBase` are the platform's; `events` and `reply` are the model's own (log entries 4 and 7). -/
structure State where
  /-- `ACC` (10_state.md R22) -/
  acc     : Word
  /-- `LANE[0..3]` (10_state.md R23) -/
  lanes   : Lanes
  /-- `COUNT` (10_state.md R24) -/
  count   : Word
  /-- `DATA` (10_state.md R25) -/
  data    : Word
  /-- `BASE` (10_state.md R26) -/
  base    : Word
  /-- `LEN` (10_state.md R27) -/
  len     : Word
  /-- `PCK` (10_state.md R36) -/
  pck     : Word
  /-- `PLO` (10_state.md R36) -/
  plo     : Word
  /-- `PHI` (10_state.md R36) -/
  phi     : Word
  /-- `READCK` (10_state.md R37) -/
  readck  : Word
  /-- `FADDR` (10_state.md R38) -/
  faddr   : Word
  /-- `STATUS` (10_state.md R28) -/
  status  : Status
  /-- `PHASE` (10_state.md R48) -/
  phase   : Phase
  /-- `IDX` (10_state.md R46) -/
  idx     : Word
  /-- Image memory (20_memory.md R62) -/
  mem     : Memory
  /-- Where `MEM_ERR` holds now (20_memory.md R70; log entry 3) -/
  memErr  : List ErrRegion
  /-- What reads of image memory do beside returning the bytes (20_memory.md R68; log entry 11) -/
  readEffects : List ReadEffect
  /-- `REG_BASE` (00_scope.md R6; log entry 2) -/
  regBase : Nat
  /-- The events still to come, the next one first (20_memory.md R71; log entry 4) -/
  events  : List Event
  /-- What the host's last read returned (log entry 7) -/
  reply   : Reply
  deriving DecidableEq, Repr

/-- Why the machine stops. It has no constructor: the engine has no trap and never stops, every error
is a code in `STATUS.ERR` (60_exceptions.md R240: "There are no other exceptions"; R247). -/
inductive Fault where
  deriving DecidableEq, Repr

/-- Why a step has no meaning. -/
inductive Refusal where
  /-- Raised by `exec` for a command the model gives no meaning. Safe. No command is left so. -/
  | notModelled (mnemonic : String)
  /-- Raised by a host register access of a width other than 32 bits (20_memory.md R61;
  93_implementation_defined.md U1). Safe: the spec says a model refuses it. -/
  | registerAccessWidth
  /-- Raised by a host register access at an offset that is not a multiple of 4 (20_memory.md R61;
  93_implementation_defined.md U1). Safe: the spec says a model refuses it. -/
  | registerAccessMisaligned
  /-- Raised by a host register access outside the 64-byte window (20_memory.md R60, R61; log entry 8).
  Safe: no statement is made about it. -/
  | outsideRegisterWindow
  deriving DecidableEq, Repr

/-- The lanes at their start value (10_state.md R23). -/
abbrev Lanes.init : Lanes := ⟨Config.crcInit, Config.crcInit, Config.crcInit, Config.crcInit⟩

/-- `STATUS` = 0x00000000 (10_state.md R49). -/
abbrev Status.zero : Status :=
  { busy := false, done := false, ckOk := false, crcOk := false, ovr := false, err := .none, last := .none }

/-- The machine right after reset (10_state.md R49; 70_reset_and_hazards.md R280). Image memory lists
nothing, no access fails, no read has an effect, the window stands at 0 and no event is to come
(log entries 1 to 4 and 11). -/
def State.reset : State where
  acc     := 0
  lanes   := Lanes.init
  count   := 0
  data    := 0
  base    := 0
  len     := 0
  pck     := 0
  plo     := 0
  phi     := 0
  readck  := 0
  faddr   := 0
  status  := Status.zero
  phase   := .idle
  idx     := 0
  mem     := []
  memErr  := []
  readEffects := []
  regBase := 0
  events  := []
  reply   := .none

end Sys2Proof.Machine
end

