-- ==== Sys2Proof/Machine/Ops.lean ====
section
/-! DEFINITION. The operations the commands and the sequencer share: image memory and its port, the CRC
table and the lane law, the feeds, the patch-word writer, errors, and the acceptance of a command. -/

namespace Sys2Proof.Machine

/-! ## Image memory -/

/-- The byte at address `a` (20_memory.md R62). -/
def Memory.read : Memory → Nat → Byte
  | [], _ => Config.unlistedByte
  | (k, b) :: rest, a => if k = a then b else Memory.read rest a

/-- Put `b` at address `a`, keeping the canonical form: writing what an unlisted byte reads as removes
the entry. -/
def Memory.write : Memory → Nat → Byte → Memory
  | [], a, b => if b = Config.unlistedByte then [] else [(a, b)]
  | (k, c) :: rest, a, b =>
    if a < k then (if b = Config.unlistedByte then (k, c) :: rest else (a, b) :: (k, c) :: rest)
    else if a = k then (if b = Config.unlistedByte then rest else (a, b) :: rest)
    else (k, c) :: Memory.write rest a b

/-- Addresses strictly rise from `lo` on, stay inside the space, and no entry equals an unlisted byte. -/
def Memory.wfFrom : Nat → Memory → Bool
  | _, [] => true
  | lo, (k, b) :: rest =>
    lo ≤ k && k < Config.imageSpaceBytes && b != Config.unlistedByte && Memory.wfFrom (k + 1) rest

/-- The canonical form of image memory. -/
def Memory.wf (m : Memory) : Bool := Memory.wfFrom 0 m

/-- The byte `m[a]` at a 32-bit image address. -/
abbrev Memory.byteAt (m : Memory) (a : Word) : Byte := m.read a.toNat

/-- Byte `i` of a word, `w[8i+7 : 8i]` (20_memory.md R65; 41_feed.md R133). -/
def wordByte (w : Word) (i : Nat) : Byte := w.extractLsb' (8 * i) 8

/-- `MemRead(a, 4)`, little-endian (20_memory.md R63). -/
def Memory.readWord (m : Memory) (a : Word) : Word :=
  (m.byteAt a).setWidth 32
    ||| ((m.byteAt (a + 1)).setWidth 32 <<< 8)
    ||| ((m.byteAt (a + 2)).setWidth 32 <<< 16)
    ||| ((m.byteAt (a + 3)).setWidth 32 <<< 24)

/-- `MemWrite(a, 4, v)`, little-endian (20_memory.md R64). -/
def Memory.writeWord (m : Memory) (a : Word) (v : Word) : Memory :=
  (((m.write a.toNat (wordByte v 0)).write (a + 1).toNat (wordByte v 1)).write
    (a + 2).toNat (wordByte v 2)).write (a + 3).toNat (wordByte v 3)

/-- The `n` bytes from `a` on, as a reader outside the engine sees them. -/
def Memory.readBytes (m : Memory) (a : Word) : Nat → List Byte
  | 0 => []
  | n + 1 => m.byteAt a :: Memory.readBytes m (a + 1) n

/-- Write the listed bytes, in order (log entry 14). -/
def Memory.writeCells (m : Memory) : List (Word × Byte) → Memory
  | [] => m
  | (a, b) :: rest => Memory.writeCells (m.write a.toNat b) rest

/-- `MEM_ERR(a, d)` as the platform has it now (20_memory.md R70). -/
def State.memErrAt (s : State) (a : Word) (d : Dir) : Bool :=
  s.memErr.any fun r => decide (r.dir = d) && decide (r.lo ≤ a) && decide (a ≤ r.hi)

/-- A read of the `n` bytes from `a` on reads an address of the effect's region (20_memory.md R68). -/
def readMeets (e : ReadEffect) (a : Word) (n : Nat) : Bool :=
  (List.range n).any fun i =>
    decide (e.lo ≤ a + BitVec.ofNat 32 i) && decide (a + BitVec.ofNat 32 i ≤ e.hi)

/-- The bytes the platform writes when the `n` bytes from `a` on are read: those of every effect the read
meets, in order (20_memory.md R68). -/
def State.readCells (s : State) (a : Word) (n : Nat) : List (Word × Byte) :=
  (s.readEffects.filter fun e => readMeets e a n).flatMap fun e => e.cells

/-- Image memory after a read of the `n` bytes from `a` on: "whatever effect the platform gives it"
(20_memory.md R68; log entry 11). -/
def State.memAfterRead (s : State) (a : Word) (n : Nat) : Memory := s.mem.writeCells (s.readCells a n)

/-! ## The CRC table and the lanes -/

/-- One round of the table's construction: test bit 0, shift right, XOR the constant if the bit was 1
(41_feed.md R131; log entry 12). -/
def crcRound (c : Lane) : Lane :=
  if c.getLsbD 0 then (c >>> 1) ^^^ Config.crcPoly else c >>> 1

/-- `n` rounds (41_feed.md R131). -/
def crcRounds : Nat → Lane → Lane
  | 0, c => c
  | n + 1, c => crcRounds n (crcRound c)

/-- The constant table `T` (10_state.md R47; 41_feed.md R131): entry `n` is 8 rounds from `n`. -/
def crcTable (n : Byte) : Lane := crcRounds 8 (n.setWidth 16)

/-- One lane fed one byte (41_feed.md R133). -/
def laneStep (l : Lane) (b : Byte) : Lane :=
  (l >>> 8) ^^^ crcTable (((l ^^^ b.setWidth 16) &&& 0x00FF).setWidth 8)

/-- The lanes fed a word, lane `i` its byte `i`, each from its own old value (41_feed.md R133). -/
def Lanes.feed (ls : Lanes) (w : Word) : Lanes :=
  { l0 := laneStep ls.l0 (wordByte w 0)
    l1 := laneStep ls.l1 (wordByte w 1)
    l2 := laneStep ls.l2 (wordByte w 2)
    l3 := laneStep ls.l3 (wordByte w 3) }

/-- All four lanes hold 0 (43_sequencer.md R199). -/
def Lanes.allZero (ls : Lanes) : Bool :=
  ls.l0 == 0 && ls.l1 == 0 && ls.l2 == 0 && ls.l3 == 0

/-- Feed `w` to the lanes only, and count it (41_feed.md R135). -/
def State.feedLanes (s : State) (w : Word) : State :=
  { s with lanes := s.lanes.feed w, count := s.count + Config.wordBytes }

/-- Feed `w` to the accumulator and the lanes, and count it (41_feed.md R130, R134). -/
def State.feedWord (s : State) (w : Word) : State :=
  { s with acc := s.acc + w, lanes := s.lanes.feed w, count := s.count + Config.wordBytes }

/-! ## The patch-word writer -/

/-- The checksum word `0 - ACC` (42_patch_writer.md R171). -/
def checksumWord (acc : Word) : Word := 0 - acc

/-- The CRC-low word: the low byte of lane `i` in byte `i` (42_patch_writer.md R172). -/
def crcLowWord (ls : Lanes) : Word :=
  ls.l3.extractLsb' 0 8 ++ ls.l2.extractLsb' 0 8 ++ ls.l1.extractLsb' 0 8 ++ ls.l0.extractLsb' 0 8

/-- The CRC-high word: the high byte of lane `i` in byte `i` (42_patch_writer.md R173). -/
def crcHighWord (ls : Lanes) : Word :=
  ls.l3.extractLsb' 8 8 ++ ls.l2.extractLsb' 8 8 ++ ls.l1.extractLsb' 8 8 ++ ls.l0.extractLsb' 8 8

/-- Capture the three patch words (42_patch_writer.md R170; 43_sequencer.md R196). -/
def State.latchWords (s : State) : State :=
  { s with pck := checksumWord s.acc, plo := crcLowWord s.lanes, phi := crcHighWord s.lanes }

/-! ## Errors

The engine has no trap: an error is a code written to `STATUS.ERR` and there is no operation that
returns from one. The next decoded command overwrites the code (60_exceptions.md R247, R248), which is
what `acceptCommand` does first. -/

/-- `raise Error(code)`: `STATUS.ERR <- code` and nothing more (60_exceptions.md R240, R247). -/
def State.raiseError (s : State) (code : ErrCode) : State :=
  { s with status := { s.status with err := code } }

/-- `finish()` (43_sequencer.md R205). -/
def State.finish (s : State) : State :=
  { s with status := { s.status with busy := false, done := true }, phase := .idle }

/-- `raise MemFault(a)`: the abort of a sequence (43_sequencer.md R204; 60_exceptions.md R244). -/
def State.memFault (s : State) (a : Word) : State :=
  { s.raiseError .memFault with faddr := a }.finish

/-- A dropped register write: the sticky `STATUS.OVR` is set (10_state.md R44; 60_exceptions.md R245). -/
def State.dropWrite (s : State) : State :=
  { s with status := { s.status with ovr := true } }

/-! ## Commands -/

/-- A command written to `CMD`: dropped while BUSY; otherwise ERR becomes NONE and the command's own
operation follows in the same event (10_state.md R39, R44; 30_encoding.md R103; 20_memory.md R72;
log entry 5). -/
def acceptCommand (s : State) (operation : State → State) : Host.Outcome State Fault Refusal :=
  if s.status.busy then .next s.dropWrite else .next (operation (s.raiseError .none))

/-- `start_sequence(k)` (43_sequencer.md R193). -/
def State.startSequence (s : State) (k : SeqKind) : State :=
  { s with
    acc := 0, lanes := Lanes.init, count := 0
    pck := 0, plo := 0, phi := 0, readck := 0, faddr := 0
    status := { s.status with ckOk := false, crcOk := false, done := false, last := k, busy := true }
    idx := 0, phase := .body }

/-- Reset (70_reset_and_hazards.md R280 to R282): every piece of engine state takes its reset value; the
platform's memory and parameters, the events to come and the host's last reply are not the engine's. -/
def State.applyReset (s : State) : State :=
  { State.reset with
    mem := s.mem, memErr := s.memErr, readEffects := s.readEffects, regBase := s.regBase
    events := s.events, reply := s.reply }

end Sys2Proof.Machine
end

