-- ==== Sys2Proof/Machine/Flags.lean ====
section
/-! DEFINITION. The `STATUS` word and the two verdicts. -/

namespace Sys2Proof.Machine

/-- The 4-bit code of an error (60_exceptions.md R240). -/
def ErrCode.code : ErrCode → BitVec 4
  | .none => 0
  | .illegalCmd => 1
  | .badLength => 2
  | .badRange => 3
  | .memFault => 4

/-- The 2-bit code of the last sequence's kind (10_state.md R28, R35). -/
def SeqKind.code : SeqKind → BitVec 2
  | .none => 0
  | .verify => 1
  | .patch => 2

/-- `STATUS` as a word, most significant field first (10_state.md R28): [31:14] reserved, [13:12] LAST,
[11:8] ERR, [7:5] reserved, 4 OVR, 3 CRC_OK, 2 CK_OK, 1 DONE, 0 BUSY. -/
def Status.word (st : Status) : Word :=
  0#18 ++ st.last.code ++ st.err.code ++ 0#3 ++ BitVec.ofBool st.ovr ++ BitVec.ofBool st.crcOk
    ++ BitVec.ofBool st.ckOk ++ BitVec.ofBool st.done ++ BitVec.ofBool st.busy

/-- The checksum verdict `READCK == PCK` (10_state.md R31; 43_sequencer.md R199). -/
def State.checksumVerdict (s : State) : Bool := s.readck == s.pck

/-- The CRC verdict, all four lanes 0 (10_state.md R32; 43_sequencer.md R199). -/
def State.crcVerdict (s : State) : Bool := s.lanes.allZero

end Sys2Proof.Machine
end

