-- ==== Sys2Proof/Machine/Operands.lean ====
section
/-! DEFINITION. The fixed operand registers (30_encoding.md R101): how the host writes them, and what
VERIFY and PATCH require of them. -/

namespace Sys2Proof.Machine

/-- The operand of FEED and FEEDCRC: `DATA` (41_feed.md R134, R135). -/
def State.feedOperand (s : State) : Word := s.data

/-- What a write of `v` stores in `BASE`: `{v[31:2], 0b00}`, bits [1:0] hardwired to 0 (10_state.md R26). -/
def baseStored (v : Word) : Word := v.extractLsb' 2 30 ++ 0#2

/-- A host write of an operand register: dropped while BUSY (10_state.md R25 to R27, R44). -/
def writeOperand (s : State) (stored : State) : Host.Outcome State Fault Refusal :=
  if s.status.busy then .next s.dropWrite else .next stored

/-- BAD_LENGTH: `LEN[1:0] != 0` or `LEN` below the sequence's minimum (60_exceptions.md R242). -/
def badLength (len minimum : Word) : Bool :=
  len.extractLsb' 0 2 != 0 || decide (len < minimum)

/-- BAD_RANGE: `zext_33(BASE) + zext_33(LEN) > 2^32` (60_exceptions.md R243). -/
def badRange (base len : Word) : Bool :=
  decide (base.toNat + len.toNat > Config.imageSpaceBytes)

end Sys2Proof.Machine
end

