-- ==== Sys2Proof/Machine/Control.lean ====
section
/-! DEFINITION. The control commands NOP and CLEAR (40_control.md). -/

namespace Sys2Proof.Machine

/-- NOP (40_control.md R120): nothing beyond the decode's ERR <- NONE. -/
def execNop (s : State) : Host.Outcome State Fault Refusal :=
  acceptCommand s fun t => t

/-- What CLEAR writes (40_control.md R121); DATA, BASE, LEN, PHASE and IDX keep their values, and BUSY is
already 0. -/
def State.clearAll (s : State) : State :=
  { s with
    acc := 0, lanes := Lanes.init, count := 0
    pck := 0, plo := 0, phi := 0, readck := 0, faddr := 0
    status :=
      { s.status with done := false, ckOk := false, crcOk := false, ovr := false, err := .none, last := .none } }

/-- CLEAR (40_control.md R121). -/
def execClear (s : State) : Host.Outcome State Fault Refusal :=
  acceptCommand s State.clearAll

end Sys2Proof.Machine
end

