-- ==== Sys2Proof/Machine/Feed.lean ====
section
/-! DEFINITION. The feed commands (41_feed.md). -/

namespace Sys2Proof.Machine

/-- FEED (41_feed.md R134). -/
def execFeed (s : State) : Host.Outcome State Fault Refusal :=
  acceptCommand s fun t => t.feedWord t.feedOperand

/-- FEEDCRC (41_feed.md R135). -/
def execFeedcrc (s : State) : Host.Outcome State Fault Refusal :=
  acceptCommand s fun t => t.feedLanes t.feedOperand

end Sys2Proof.Machine
end

