-- ==== Sys2Proof/Machine/PatchWriter.lean ====
section
/-! DEFINITION. The patch-word writer's command (42_patch_writer.md). -/

namespace Sys2Proof.Machine

/-- LATCH (42_patch_writer.md R170). -/
def execLatch (s : State) : Host.Outcome State Fault Refusal :=
  acceptCommand s State.latchWords

end Sys2Proof.Machine
end

