-- ==== Sys2Proof/Machine/Sequencer.lean ====
section
/-! DEFINITION. The verify/patch sequencer (43_sequencer.md): the two commands that start it, the access
each step puts on the memory port, and the steps. -/

namespace Sys2Proof.Machine

/-! ## Starting a sequence -/

/-- The checks at acceptance, length before range, then the start (43_sequencer.md R191 to R193;
60_exceptions.md R242, R243, R246). -/
def State.requestSequence (s : State) (k : SeqKind) (minimum : Word) : State :=
  if badLength s.len minimum then s.raiseError .badLength
  else if badRange s.base s.len then s.raiseError .badRange
  else s.startSequence k

/-- VERIFY (43_sequencer.md R191). -/
def execVerify (s : State) : Host.Outcome State Fault Refusal :=
  acceptCommand s fun t => t.requestSequence .verify Config.minLenVerify

/-- PATCH (43_sequencer.md R192). -/
def execPatch (s : State) : Host.Outcome State Fault Refusal :=
  acceptCommand s fun t => t.requestSequence .patch Config.minLenPatch

/-! ## The memory port -/

/-- The address an access stands at. -/
def Access.addr : Access → Word
  | .read a => a
  | .write a _ => a

/-- The direction of an access. -/
def Access.dir : Access → Dir
  | .read _ => .read
  | .write _ _ => .write

/-- The address of the trailer word `back` bytes before the image's end (20_memory.md R69). -/
def State.trailerAddr (s : State) (back : Word) : Word := s.base + s.len - back

/-- The body is not read to its end: `IDX < N - 12` (43_sequencer.md R194; log entry 10). -/
def State.bodyLeft (s : State) : Bool := decide (s.idx < s.len - Config.trailerBytes)

/-- The access the enabled step puts on the memory port, if it makes one (43_sequencer.md R194 to R203;
20_memory.md R68). -/
def State.portAccess (s : State) : Option Access :=
  match s.phase with
  | .idle => none
  | .body => if s.bodyLeft then some (.read (s.base + s.idx)) else none
  | .rdck => some (.read (s.trailerAddr 12))
  | .crclo => some (.read (s.trailerAddr 8))
  | .crchi => some (.read (s.trailerAddr 4))
  | .lenw => some (.write (s.base + Config.lenFieldOff) s.len)
  | .wck => some (.write (s.trailerAddr 12) s.pck)
  | .wlo => some (.write (s.trailerAddr 8) s.plo)
  | .whi => some (.write (s.trailerAddr 4) s.phi)

/-! ## The steps -/

/-- The word fed for the body word `w` read at `IDX`: PATCH takes `N` at offset 4
(43_sequencer.md R195). -/
def State.bodyWord (s : State) (w : Word) : Word :=
  if s.status.last = .patch ∧ s.idx = Config.lenFieldOff then s.len else w

/-- BODY read step, after the word was read (43_sequencer.md R194). -/
def State.bodyReadStep (s : State) (w : Word) : State :=
  { s.feedWord (s.bodyWord w) with idx := s.idx + Config.wordBytes }

/-- BODY latch step (43_sequencer.md R196). -/
def State.bodyLatchStep (s : State) : State :=
  { s.latchWords with phase := if s.status.last = .verify then .rdck else .lenw }

/-- RDCK step, after the word was read (43_sequencer.md R197). -/
def State.rdckStep (s : State) (w : Word) : State :=
  { s with readck := w, phase := .crclo }

/-- CRCLO step, after the word was read (43_sequencer.md R198). -/
def State.crcloStep (s : State) (w : Word) : State :=
  { s.feedLanes w with phase := .crchi }

/-- The verdicts of a VERIFY (43_sequencer.md R199). -/
def State.writeVerdicts (s : State) : State :=
  { s with status := { s.status with ckOk := s.checksumVerdict, crcOk := s.crcVerdict } }

/-- CRCHI step, after the word was read (43_sequencer.md R199). -/
def State.crchiStep (s : State) (w : Word) : State :=
  (s.feedLanes w).writeVerdicts.finish

/-- LENW step, after the length field was written (43_sequencer.md R200). -/
def State.lenwStep (s : State) : State := { s with phase := .wck }

/-- WCK step, after the checksum word was written (43_sequencer.md R201). -/
def State.wckStep (s : State) : State := { s with phase := .wlo }

/-- WLO step, after the CRC-low word was written (43_sequencer.md R202). -/
def State.wloStep (s : State) : State := { s with phase := .whi }

/-- WHI step, after the CRC-high word was written (43_sequencer.md R203). -/
def State.whiStep (s : State) : State := s.finish

/-- What the step does with the word `w` its read returned. -/
def State.afterRead (s : State) (w : Word) : State :=
  match s.phase with
  | .idle => s
  | .body => s.bodyReadStep w
  | .rdck => s.rdckStep w
  | .crclo => s.crcloStep w
  | .crchi => s.crchiStep w
  | .lenw => s
  | .wck => s
  | .wlo => s
  | .whi => s

/-- What the step does once its write is in memory. -/
def State.afterWrite (s : State) : State :=
  match s.phase with
  | .idle => s
  | .body => s
  | .rdck => s
  | .crclo => s
  | .crchi => s
  | .lenw => s.lenwStep
  | .wck => s.wckStep
  | .wlo => s.wloStep
  | .whi => s.whiStep

/-- A step that makes no access: the BODY latch; while IDLE no step is enabled and nothing changes
(43_sequencer.md R196, R206; 60_exceptions.md R255). -/
def State.quietStep (s : State) : State :=
  match s.phase with
  | .idle => s
  | .body => s.bodyLatchStep
  | .rdck => s
  | .crclo => s
  | .crchi => s
  | .lenw => s
  | .wck => s
  | .wlo => s
  | .whi => s

/-- The engine's turn (43_sequencer.md R206): the enabled step, or its abort when `MEM_ERR` holds for its
access (R204; 20_memory.md R70). A read returns the bytes as they stand and then has the effect the platform
gives it (20_memory.md R68). -/
def State.engineStep (s : State) : State :=
  match s.portAccess with
  | none => s.quietStep
  | some (.read a) =>
    if s.memErrAt a .read then s.memFault a
    else { s with mem := s.memAfterRead a 4 }.afterRead (s.mem.readWord a)
  | some (.write a v) =>
    if s.memErrAt a .write then s.memFault a
    else { s with mem := s.mem.writeWord a v }.afterWrite

end Sys2Proof.Machine
end

