-- ==== Sys2Proof/Machine/Dispatch.lean ====
section
/-! DEFINITION. One arm per command (30_encoding.md R102): what writing it to `CMD` does. -/

namespace Sys2Proof.Machine

def exec (i : Instr) (s : State) : Host.Outcome State Fault Refusal :=
  match i with
  | .nop => Sys2Proof.Machine.execNop s
  | .clear => Sys2Proof.Machine.execClear s
  | .feed => Sys2Proof.Machine.execFeed s
  | .feedcrc => Sys2Proof.Machine.execFeedcrc s
  | .latch => Sys2Proof.Machine.execLatch s
  | .verify => Sys2Proof.Machine.execVerify s
  | .patch => Sys2Proof.Machine.execPatch s

end Sys2Proof.Machine
end

