-- ==== Sys2Proof/Machine/HostPort.lean ====
section
/-! DEFINITION. The host's side of the engine: the register map (10_state.md R41), register reads and
writes (R39 to R45), and each event of the total order (20_memory.md R71, R77). -/

namespace Sys2Proof.Machine

/-- The register at an offset of the window (10_state.md R41). -/
def regAt (offset : Nat) : Option Reg :=
  match offset with
  | 0x00 => some .cmd
  | 0x04 => some .data
  | 0x08 => some .base
  | 0x0C => some .len
  | 0x10 => some .status
  | 0x14 => some .acc
  | 0x18 => some .lane01
  | 0x1C => some .lane23
  | 0x20 => some .count
  | 0x24 => some .pck
  | 0x28 => some .plo
  | 0x2C => some .phi
  | 0x30 => some .readck
  | 0x34 => some .faddr
  | 0x38 => some .reserved38
  | 0x3C => some .reserved3C
  | _ => none

/-- The offset of a register in the window (10_state.md R41). -/
def regOffset : Reg → Nat
  | .cmd => 0x00
  | .data => 0x04
  | .base => 0x08
  | .len => 0x0C
  | .status => 0x10
  | .acc => 0x14
  | .lane01 => 0x18
  | .lane23 => 0x1C
  | .count => 0x20
  | .pck => 0x24
  | .plo => 0x28
  | .phi => 0x2C
  | .readck => 0x30
  | .faddr => 0x34
  | .reserved38 => 0x38
  | .reserved3C => 0x3C

/-- The value a host read of a register returns (10_state.md R22 to R42): `CMD` and the reserved offsets
read 0, and `LANE01`, `LANE23` are views of the lanes (R40). -/
def State.regValue (s : State) : Reg → Word
  | .cmd => 0
  | .data => s.data
  | .base => s.base
  | .len => s.len
  | .status => s.status.word
  | .acc => s.acc
  | .lane01 => s.lanes.l1 ++ s.lanes.l0
  | .lane23 => s.lanes.l3 ++ s.lanes.l2
  | .count => s.count
  | .pck => s.pck
  | .plo => s.plo
  | .phi => s.phi
  | .readck => s.readck
  | .faddr => s.faddr
  | .reserved38 => 0
  | .reserved3C => 0

/-- A host write of the word `c` to `CMD` (10_state.md R39; 30_encoding.md R103; 60_exceptions.md R241). -/
def commandWrite (c : Word) (s : State) : Host.Outcome State Fault Refusal :=
  match decode c with
  | .ok i => exec i s
  | .error _ => acceptCommand s fun t => t.raiseError .illegalCmd

/-- A host write of `v` to a register (10_state.md R25 to R27, R39, R42 to R44). -/
def regWrite (r : Reg) (v : Word) (s : State) : Host.Outcome State Fault Refusal :=
  match r with
  | .cmd => commandWrite v s
  | .data => writeOperand s { s with data := v }
  | .base => writeOperand s { s with base := baseStored v }
  | .len => writeOperand s { s with len := v }
  | .status => .next s
  | .acc => .next s
  | .lane01 => .next s
  | .lane23 => .next s
  | .count => .next s
  | .pck => .next s
  | .plo => .next s
  | .phi => .next s
  | .readck => .next s
  | .faddr => .next s
  | .reserved38 => .next s
  | .reserved3C => .next s

/-- A host read of a register: no side effect on the engine (10_state.md R45). -/
def State.regRead (s : State) (r : Reg) : State := { s with reply := .reg (s.regValue r) }

/-- Find the register a well-formed access names and go on with it; refuse the rest by name
(20_memory.md R61; log entry 8). -/
def withRegister (s : State) (addr width : Nat) (k : Reg → Host.Outcome State Fault Refusal) :
    Host.Outcome State Fault Refusal :=
  if addr < s.regBase ∨ s.regBase + Config.regWindowBytes ≤ addr then .refused .outsideRegisterWindow
  else if width ≠ 32 then .refused .registerAccessWidth
  else
    match regAt (addr - s.regBase) with
    | some r => k r
    | none => .refused .registerAccessMisaligned

/-- WAIT (30_encoding.md R105): read STATUS; while BUSY is 1, let the engine take a step and poll again
(log entry 6). -/
def State.waitTurn (s : State) : State :=
  if s.status.busy then { s.regRead .status with events := .engine :: .wait :: s.events }
  else s.regRead .status

/-- What one event does; it has already left the events to come. -/
def perform (e : Event) (s : State) : Host.Outcome State Fault Refusal :=
  match e with
  | .regRead addr width => withRegister s addr width fun r => .next (s.regRead r)
  | .regWrite addr width v => withRegister s addr width fun r => regWrite r v s
  | .memRead addr n => .next { s with mem := s.memAfterRead addr n, reply := .mem (s.mem.readBytes addr n) }
  | .memWrite cells => .next { s with mem := s.mem.writeCells cells }
  | .wait => .next s.waitTurn
  | .engine => .next s.engineStep
  | .reset => .next s.applyReset
  | .setMemErr regions => .next { s with memErr := regions }
  | .setReadEffects effects => .next { s with readEffects := effects }

/-! ## The host notation -/

/-- The event of an operation of the notation (30_encoding.md R105). -/
def HostOp.event (regBase : Nat) : HostOp → Event
  | .wr r v => .regWrite (regBase + regOffset r) 32 v
  | .rd r => .regRead (regBase + regOffset r) 32
  | .cmd i => .regWrite (regBase + regOffset .cmd) 32 (encode i)
  | .wait => .wait
  | .wrm a v => .memWrite [(a, wordByte v 0), (a + 1, wordByte v 1), (a + 2, wordByte v 2), (a + 3, wordByte v 3)]

/-- `FEEDW v` (30_encoding.md R106). -/
def pseudoFeedW (v : Word) : List HostOp := [.wr .data v, .cmd .feed]

/-- `FEEDC v` (30_encoding.md R106). -/
def pseudoFeedC (v : Word) : List HostOp := [.wr .data v, .cmd .feedcrc]

/-- `RUNV base, len` (30_encoding.md R106). -/
def pseudoRunV (base len : Word) : List HostOp := [.wr .base base, .wr .len len, .cmd .verify, .wait]

/-- `RUNP base, len` (30_encoding.md R106). -/
def pseudoRunP (base len : Word) : List HostOp := [.wr .base base, .wr .len len, .cmd .patch, .wait]

/-- The events of a host program (30_encoding.md R105). -/
def hostEvents (regBase : Nat) (prog : List HostOp) : List Event := prog.map (HostOp.event regBase)

end Sys2Proof.Machine
end

