-- ==== Sys2Proof/Machine/Step.lean ====
section
/-! DEFINITION. One step of the machine: the next event of the total order of 20_memory.md R71. -/

namespace Sys2Proof.Machine

/-- One step: the next event to come; when none is, the engine's turn, so that an enabled engine step
always occurs in the end (43_sequencer.md R206; log entry 4). -/
def step (s : State) : Host.Outcome State Fault Refusal :=
  match s.events with
  | [] => .next s.engineStep
  | e :: rest => perform e { s with events := rest }

/-- `s` with the host's write of the command word `w` to `CMD` as the very next event: the command
stream is the host's writes to `CMD` (20_memory.md R76; log entry 16). -/
def State.withFetchWord (s : State) (nbits w : Nat) : State :=
  { s with
    events := .regWrite (s.regBase + regOffset .cmd) 32 (BitVec.ofNat 32 (w % 2 ^ nbits)) :: s.events }

end Sys2Proof.Machine
end

