-- ==== Sys2Proof/Safety.lean ====
section
/-! DEFINITION. The terms in which claims about runs are made: the invariant of the machine, the steps a
sequence has left, runs of a sequence under any interleaving, the accesses it performs, and the closed
forms of 43_sequencer.md. -/

namespace Sys2Proof.Machine

/-- The least length a sequence accepts (60_exceptions.md R242). -/
def SeqKind.minLen : SeqKind → Nat
  | .none => 0
  | .verify => 12
  | .patch => 20

/-- What holds while a sequence runs: its operands passed the checks (60_exceptions.md R242, R243), its
results are not there yet (43_sequencer.md R193), and its phase belongs to its kind (R190). -/
structure State.Running (s : State) : Prop where
  noError : s.status.err = .none
  notDone : s.status.done = false
  noChecksumVerdict : s.status.ckOk = false
  noCrcVerdict : s.status.crcOk = false
  kind : s.status.last ≠ .none
  lengthMultiple : s.len.toNat % 4 = 0
  lengthMinimum : s.status.last.minLen ≤ s.len.toNat
  range : s.base.toNat + s.len.toNat ≤ 2 ^ 32
  verifyPhase : s.phase = .rdck ∨ s.phase = .crclo ∨ s.phase = .crchi → s.status.last = .verify
  patchPhase : s.phase = .lenw ∨ s.phase = .wck ∨ s.phase = .wlo ∨ s.phase = .whi → s.status.last = .patch
  bodyOffset : s.phase = .body → s.idx.toNat % 4 = 0 ∧ s.idx.toNat + 12 ≤ s.len.toNat
  bodyCount : s.phase = .body → s.count = s.idx

/-- The invariant of the machine. -/
structure State.Inv (s : State) : Prop where
  /-- image memory keeps its canonical form -/
  memory : s.mem.wf = true
  /-- `BASE[1:0]` is 0 (10_state.md R26) -/
  baseAligned : s.base.toNat % 4 = 0
  /-- `PHASE = IDLE` exactly when `STATUS.BUSY = 0` (10_state.md R48) -/
  idleIffNotBusy : s.phase = .idle ↔ s.status.busy = false
  /-- a running sequence is one that was accepted -/
  running : s.status.busy = true → s.Running
  /-- a verdict is a finished VERIFY's (10_state.md R31, R32) -/
  verdicts : s.status.ckOk = true ∨ s.status.crcOk = true → s.status.last = .verify ∧ s.status.done = true

/-- The body words still to be read. -/
def State.bodyWordsLeft (s : State) : Nat := (s.len.toNat - 12 - s.idx.toNat) / 4

/-- The engine steps the running sequence has left when no access fails (43_sequencer.md R190, R206). -/
def State.stepsLeft (s : State) : Nat :=
  match s.phase with
  | .idle => 0
  | .body => s.bodyWordsLeft + 1 + (if s.status.last = .verify then 3 else 4)
  | .rdck => 3
  | .crclo => 2
  | .crchi => 1
  | .lenw => 4
  | .wck => 3
  | .wlo => 2
  | .whi => 1

/-- VERIFY or PATCH would be accepted (60_exceptions.md R242, R243). -/
def State.accepts (s : State) (k : SeqKind) : Prop :=
  s.status.busy = false ∧ s.len.toNat % 4 = 0 ∧ k.minLen ≤ s.len.toNat
    ∧ s.base.toNat + s.len.toNat ≤ 2 ^ 32

/-- The address lies in the image `[BASE, BASE+LEN)`. -/
def State.inImage (s : State) (a : Word) : Prop :=
  s.base.toNat ≤ a.toNat ∧ a.toNat < s.base.toNat + s.len.toNat

/-- The address lies in the word that starts at `a`. -/
def inWord (a x : Word) : Prop := x = a ∨ x = a + 1 ∨ x = a + 2 ∨ x = a + 3

/-- The byte the list names last for the address, if it names the address. -/
def lastListed (cells : List (Word × Byte)) (x : Word) : Option Byte :=
  (cells.reverse.find? fun c => c.1 = x).map fun c => c.2

/-- The read effects in force write only where `mayWrite` allows (20_memory.md R68). -/
def State.effectsWithin (mayWrite : Word → Prop) (s : State) : Prop :=
  ∀ e ∈ s.readEffects, ∀ c ∈ e.cells, mayWrite c.1

/-! ## What the next step is -/

/-- The next step is the engine's turn: the order says so, or no event is to come (43_sequencer.md R206). -/
def State.engineTurn (s : State) : Prop := s.events = [] ∨ ∃ rest, s.events = .engine :: rest

/-- The next step is a reset. -/
def State.resets (s : State) : Prop := ∃ rest, s.events = .reset :: rest

/-- The next step writes the word `v` to the register at offset `off` of the window. -/
def State.writesReg (s : State) (off : Nat) (v : Word) : Prop :=
  ∃ rest, s.events = .regWrite (s.regBase + off) 32 v :: rest

/-- The next step issues the command `i`: its word is written to `CMD` while BUSY = 0
(10_state.md R39; 30_encoding.md R103). -/
def State.issues (s : State) (i : Instr) : Prop :=
  s.status.busy = false ∧ ∃ c, s.writesReg 0x00 c ∧ decode c = .ok i

/-- The next step starts a sequence of kind `k` (43_sequencer.md R191 to R193). -/
def State.starts (s : State) (k : SeqKind) : Prop :=
  s.accepts k ∧ ((k = .verify ∧ s.issues .verify) ∨ (k = .patch ∧ s.issues .patch))

/-! ## Runs of a sequence -/

/-- An event that leaves a running sequence alone: it is no reset, and what it writes to image memory
lies where `mayWrite` allows. -/
def harmless (mayWrite : Word → Prop) : Event → Prop
  | .regRead _ _ => True
  | .regWrite _ _ _ => True
  | .memRead _ _ => True
  | .memWrite cells => ∀ c ∈ cells, mayWrite c.1
  | .wait => True
  | .engine => True
  | .reset => False
  | .setMemErr _ => True
  | .setReadEffects _ => True

/-- From `s`, steps under harmless events, in any interleaving of host and engine, up to the first state
with BUSY = 0; no read made on the way writes outside `mayWrite` either. -/
inductive SequenceRun (mayWrite : Word → Prop) : State → State → Prop where
  | ended (s : State) : s.status.busy = false → SequenceRun mayWrite s s
  | next (s t u : State) : s.status.busy = true → (∀ e ∈ s.events.head?, harmless mayWrite e) →
      s.effectsWithin mayWrite → step s = .next t → SequenceRun mayWrite t u → SequenceRun mayWrite s u

/-- The access the engine's turn makes; one that `MEM_ERR` flags does not happen (20_memory.md R70). -/
def State.accessMade (s : State) : List (Word × Dir) :=
  match s.portAccess with
  | none => []
  | some x => if s.memErrAt x.addr x.dir then [] else [(x.addr, x.dir)]

/-- The accesses the engine makes in its next `n` turns, in order. -/
def State.accessTrace : Nat → State → List (Word × Dir)
  | 0, _ => []
  | n + 1, s => s.accessMade ++ State.accessTrace n s.engineStep

/-- From `s`, steps under any events but a reset, in any interleaving, no further than the end of the
sequence; the list is the accesses the engine made on the way. -/
inductive TracedRun : State → List (Word × Dir) → State → Prop where
  | here (s : State) : TracedRun s [] s
  | turn (s t u : State) (trace : List (Word × Dir)) : s.status.busy = true → s.engineTurn → step s = .next t →
      TracedRun t trace u → TracedRun s (s.accessMade ++ trace) u
  | other (s t u : State) (trace : List (Word × Dir)) : s.status.busy = true → ¬ s.engineTurn → ¬ s.resets →
      step s = .next t → TracedRun t trace u → TracedRun s trace u

/-! ## Closed forms -/

/-- `K = (N - 12) / 4`, the number of body words (43_sequencer.md R210). -/
def State.bodyLength (s : State) : Nat := (s.len.toNat - 12) / 4

/-- The address `B + off`. -/
def State.imageAddr (s : State) (off : Nat) : Word := s.base + BitVec.ofNat 32 off

/-- Body word `j` as the sequence of kind `k` sums it: `W_j`, or `N` at offset 4 for PATCH
(43_sequencer.md R195, R210, R211). -/
def State.bodyWordAt (s : State) (k : SeqKind) (j : Nat) : Word :=
  if k = .patch ∧ j = 1 then s.len else s.mem.readWord (s.imageAddr (4 * j))

/-- Byte `i` of body word `j`, the byte lane `i` is fed: `m[B+4j+i]`, or byte `i` of `N` at offset 4 for
PATCH (43_sequencer.md R195, R210, R211). -/
def State.bodyByteAt (s : State) (k : SeqKind) (j i : Nat) : Byte :=
  if k = .patch ∧ j = 1 then wordByte s.len i else s.mem.byteAt (s.imageAddr (4 * j + i))

/-- `W_0 + ... + W_{K-1}` modulo 2^32 (43_sequencer.md R210). -/
def State.bodySum (s : State) (k : SeqKind) : Word :=
  ((List.range s.bodyLength).map (s.bodyWordAt k)).sum

/-- A lane that starts at `CRC_INIT` and is fed the bytes in order (43_sequencer.md R210). -/
def laneOver (bytes : List Byte) : Lane := bytes.foldl laneStep Config.crcInit

/-- The bytes of the body that lane `i` is fed. -/
def State.bodyLaneBytes (s : State) (k : SeqKind) (i : Nat) : List Byte :=
  (List.range s.bodyLength).map fun j => s.bodyByteAt k j i

/-- The lanes after the body (43_sequencer.md R210, R211). -/
def State.bodyLanes (s : State) (k : SeqKind) : Lanes :=
  { l0 := laneOver (s.bodyLaneBytes k 0)
    l1 := laneOver (s.bodyLaneBytes k 1)
    l2 := laneOver (s.bodyLaneBytes k 2)
    l3 := laneOver (s.bodyLaneBytes k 3) }

/-- Lane `i` at the end of a VERIFY: the body's bytes, then `m[B+N-8+i]`, then `m[B+N-4+i]`
(43_sequencer.md R210). -/
def State.verifyLane (s : State) (i : Nat) : Lane :=
  laneOver (s.bodyLaneBytes .verify i
    ++ [s.mem.byteAt (s.imageAddr (s.len.toNat - 8 + i)), s.mem.byteAt (s.imageAddr (s.len.toNat - 4 + i))])

/-- The lanes at the end of a VERIFY (43_sequencer.md R210). -/
def State.verifyLanes (s : State) : Lanes :=
  { l0 := s.verifyLane 0, l1 := s.verifyLane 1, l2 := s.verifyLane 2, l3 := s.verifyLane 3 }

/-- The accesses of a whole sequence, in order (20_memory.md R68). -/
def State.sequenceAccesses (s : State) (k : SeqKind) : List (Word × Dir) :=
  ((List.range s.bodyLength).map fun j => (s.imageAddr (4 * j), Dir.read))
    ++ match k with
      | .none => []
      | .verify =>
        [(s.imageAddr (s.len.toNat - 12), .read), (s.imageAddr (s.len.toNat - 8), .read),
          (s.imageAddr (s.len.toNat - 4), .read)]
      | .patch =>
        [(s.imageAddr 4, .write), (s.imageAddr (s.len.toNat - 12), .write),
          (s.imageAddr (s.len.toNat - 8), .write), (s.imageAddr (s.len.toNat - 4), .write)]

end Sys2Proof.Machine
end

