-- ==== Sys2Proof/Certificates/Slice0/Obligations.lean ====
section
/-! DEFINITION. The statements for the provers. Each docstring names the rule of spec/ it formalises, or
says that it is derived. -/

open Sys2Proof Sys2Proof.Machine

/-- The values of the CRC table as 41_feed.md R132 lists them, row by row. -/
def Sys2Proof.Machine.listedTable : List Lane :=
  [0x0000, 0xC0C1, 0xC181, 0x0140, 0xC301, 0x03C0, 0x0280, 0xC241,
    0xC601, 0x06C0, 0x0780, 0xC741, 0x0500, 0xC5C1, 0xC481, 0x0440,
    0xCC01, 0x0CC0, 0x0D80, 0xCD41, 0x0F00, 0xCFC1, 0xCE81, 0x0E40,
    0x0A00, 0xCAC1, 0xCB81, 0x0B40, 0xC901, 0x09C0, 0x0880, 0xC841]
  ++ [0xD801, 0x18C0, 0x1980, 0xD941, 0x1B00, 0xDBC1, 0xDA81, 0x1A40,
    0x1E00, 0xDEC1, 0xDF81, 0x1F40, 0xDD01, 0x1DC0, 0x1C80, 0xDC41,
    0x1400, 0xD4C1, 0xD581, 0x1540, 0xD701, 0x17C0, 0x1680, 0xD641,
    0xD201, 0x12C0, 0x1380, 0xD341, 0x1100, 0xD1C1, 0xD081, 0x1040]
  ++ [0xF001, 0x30C0, 0x3180, 0xF141, 0x3300, 0xF3C1, 0xF281, 0x3240,
    0x3600, 0xF6C1, 0xF781, 0x3740, 0xF501, 0x35C0, 0x3480, 0xF441,
    0x3C00, 0xFCC1, 0xFD81, 0x3D40, 0xFF01, 0x3FC0, 0x3E80, 0xFE41,
    0xFA01, 0x3AC0, 0x3B80, 0xFB41, 0x3900, 0xF9C1, 0xF881, 0x3840]
  ++ [0x2800, 0xE8C1, 0xE981, 0x2940, 0xEB01, 0x2BC0, 0x2A80, 0xEA41,
    0xEE01, 0x2EC0, 0x2F80, 0xEF41, 0x2D00, 0xEDC1, 0xEC81, 0x2C40,
    0xE401, 0x24C0, 0x2580, 0xE541, 0x2700, 0xE7C1, 0xE681, 0x2640,
    0x2200, 0xE2C1, 0xE381, 0x2340, 0xE101, 0x21C0, 0x2080, 0xE041]
  ++ [0xA001, 0x60C0, 0x6180, 0xA141, 0x6300, 0xA3C1, 0xA281, 0x6240,
    0x6600, 0xA6C1, 0xA781, 0x6740, 0xA501, 0x65C0, 0x6480, 0xA441,
    0x6C00, 0xACC1, 0xAD81, 0x6D40, 0xAF01, 0x6FC0, 0x6E80, 0xAE41,
    0xAA01, 0x6AC0, 0x6B80, 0xAB41, 0x6900, 0xA9C1, 0xA881, 0x6840]
  ++ [0x7800, 0xB8C1, 0xB981, 0x7940, 0xBB01, 0x7BC0, 0x7A80, 0xBA41,
    0xBE01, 0x7EC0, 0x7F80, 0xBF41, 0x7D00, 0xBDC1, 0xBC81, 0x7C40,
    0xB401, 0x74C0, 0x7580, 0xB541, 0x7700, 0xB7C1, 0xB681, 0x7640,
    0x7200, 0xB2C1, 0xB381, 0x7340, 0xB101, 0x71C0, 0x7080, 0xB041]
  ++ [0x5000, 0x90C1, 0x9181, 0x5140, 0x9301, 0x53C0, 0x5280, 0x9241,
    0x9601, 0x56C0, 0x5780, 0x9741, 0x5500, 0x95C1, 0x9481, 0x5440,
    0x9C01, 0x5CC0, 0x5D80, 0x9D41, 0x5F00, 0x9FC1, 0x9E81, 0x5E40,
    0x5A00, 0x9AC1, 0x9B81, 0x5B40, 0x9901, 0x59C0, 0x5880, 0x9841]
  ++ [0x8801, 0x48C0, 0x4980, 0x8941, 0x4B00, 0x8BC1, 0x8A81, 0x4A40,
    0x4E00, 0x8EC1, 0x8F81, 0x4F40, 0x8D01, 0x4DC0, 0x4C80, 0x8C41,
    0x4400, 0x84C1, 0x8581, 0x4540, 0x8701, 0x47C0, 0x4680, 0x8641,
    0x8201, 0x42C0, 0x4380, 0x8341, 0x4100, 0x81C1, 0x8081, 0x4040]

/-- `c[31:4] != 0` or `c[3:0]` in 0x7..0xF (60_exceptions.md R241). -/
def Sys2Proof.Machine.illegalWord (c : Word) : Prop :=
  c.extractLsb' 4 28 ≠ 0 ∨ 7 ≤ (c.extractLsb' 0 4).toNat

/-- One lane fed the byte `b`, in the words of 41_feed.md R133. -/
def Sys2Proof.Machine.laneFed (l : Lane) (b : Byte) : Lane :=
  (l >>> 8) ^^^ crcTable (((l ^^^ b.setWidth 16) &&& 0x00FF).setWidth 8)

/-- The four lanes fed the word `w`, lane `i` its byte `w[8i+7 : 8i]` (41_feed.md R133). -/
def Sys2Proof.Machine.lanesFed (ls : Lanes) (w : Word) : Lanes :=
  { l0 := laneFed ls.l0 (w.extractLsb' 0 8)
    l1 := laneFed ls.l1 (w.extractLsb' 8 8)
    l2 := laneFed ls.l2 (w.extractLsb' 16 8)
    l3 := laneFed ls.l3 (w.extractLsb' 24 8) }

/-! ## Reset and registers -/

/-- 10_state.md R49. After reset every register holds 0, STATUS is 0 in every field, PHASE is IDLE and IDX
is 0, and every register of the window reads 0. -/
def Obligations.ResetStateIsAllZero : Prop :=
  let r := State.reset
  r.acc = 0 ∧ r.lanes = ⟨0, 0, 0, 0⟩ ∧ r.count = 0 ∧ r.data = 0 ∧ r.base = 0 ∧ r.len = 0
    ∧ r.pck = 0 ∧ r.plo = 0 ∧ r.phi = 0 ∧ r.readck = 0 ∧ r.faddr = 0
    ∧ r.status = ⟨false, false, false, false, false, .none, .none⟩ ∧ r.status.word = 0
    ∧ r.phase = .idle ∧ r.idx = 0 ∧ ∀ reg, r.regValue reg = 0

/-- 70_reset_and_hazards.md R280, R281, R282. A reset, at any time, puts every engine register at its
reset value in one event; no access is to come, the engine's turns change nothing, and the next command is
accepted; image memory, `REG_BASE`, `MEM_ERR` and the effects of reading stay. -/
def Obligations.ResetEventRestoresTheEngineOnly : Prop :=
  ∀ (s : State) (rest : List Event), s.events = .reset :: rest →
    ∃ t, step s = .next t
      ∧ t.acc = 0 ∧ t.lanes = ⟨0, 0, 0, 0⟩ ∧ t.count = 0 ∧ t.data = 0 ∧ t.base = 0 ∧ t.len = 0
      ∧ t.pck = 0 ∧ t.plo = 0 ∧ t.phi = 0 ∧ t.readck = 0 ∧ t.faddr = 0 ∧ t.status.word = 0
      ∧ t.phase = .idle ∧ t.idx = 0
      ∧ t.mem = s.mem ∧ t.regBase = s.regBase ∧ t.memErr = s.memErr ∧ t.readEffects = s.readEffects
      ∧ t.events = rest ∧ t.reply = s.reply
      ∧ t.portAccess = none ∧ t.engineStep = t
      ∧ ∀ operation, acceptCommand t operation = .next (operation t)

/-- Derived from 10_state.md section 5 (R28). The fields of the STATUS word, its reserved bits 0 and its LAST
never 3; a host write to STATUS is ignored; it is 0 after reset. -/
def Obligations.StatusWordFields : Prop :=
  (∀ s : State, ∀ w, w = s.regValue .status →
    w.getLsbD 0 = s.status.busy ∧ w.getLsbD 1 = s.status.done ∧ w.getLsbD 2 = s.status.ckOk
      ∧ w.getLsbD 3 = s.status.crcOk ∧ w.getLsbD 4 = s.status.ovr
      ∧ w.extractLsb' 5 3 = 0
      ∧ (w.extractLsb' 8 4).toNat =
          (match s.status.err with
            | .none => 0 | .illegalCmd => 1 | .badLength => 2 | .badRange => 3 | .memFault => 4)
      ∧ (w.extractLsb' 12 2).toNat = (match s.status.last with | .none => 0 | .verify => 1 | .patch => 2)
      ∧ w.extractLsb' 14 18 = 0)
    ∧ (∀ (s : State) (v : Word) (rest : List Event), s.events = .regWrite (s.regBase + 0x10) 32 v :: rest →
        step s = .next { s with events := rest })
    ∧ State.reset.regValue .status = 0

/-- 10_state.md R45. A host read at each offset of the map, at any time, returns the register's value
at that point and changes nothing of the engine; `LANE01` and `LANE23` are views of the lanes, `CMD` and
the reserved offsets read 0. -/
def Obligations.RegisterReadsReturnTheMap : Prop :=
  ∀ (s : State) (off : Nat) (v : Word) (rest : List Event),
    (off, v) ∈ [(0x00, 0), (0x04, s.data), (0x08, s.base), (0x0C, s.len), (0x10, s.status.word),
      (0x14, s.acc), (0x18, s.lanes.l1 ++ s.lanes.l0), (0x1C, s.lanes.l3 ++ s.lanes.l2),
      (0x20, s.count), (0x24, s.pck), (0x28, s.plo), (0x2C, s.phi), (0x30, s.readck), (0x34, s.faddr),
      (0x38, 0), (0x3C, (0 : Word))] →
    s.events = .regRead (s.regBase + off) 32 :: rest →
    step s = .next { s with events := rest, reply := .reg v }

/-- 10_state.md R43 (and the writes of R42). A host write to a read-only register or a reserved offset has no
effect, busy or not. -/
def Obligations.ReadOnlyWritesAreIgnored : Prop :=
  ∀ (s : State) (off : Nat) (v : Word) (rest : List Event),
    off ∈ [0x10, 0x14, 0x18, 0x1C, 0x20, 0x24, 0x28, 0x2C, 0x30, 0x34, 0x38, 0x3C] →
    s.events = .regWrite (s.regBase + off) 32 v :: rest →
    step s = .next { s with events := rest }

/-- 10_state.md R44, 60_exceptions.md R245. While BUSY = 1 a host write to CMD, DATA, BASE or LEN is
dropped, whatever the word: only OVR is set, and ERR keeps its value. -/
def Obligations.BusyWritesOnlySetOvr : Prop :=
  ∀ (s : State) (off : Nat) (v : Word) (rest : List Event),
    s.status.busy = true → off ∈ [0x00, 0x04, 0x08, 0x0C] →
    s.events = .regWrite (s.regBase + off) 32 v :: rest →
    step s = .next { s with events := rest, status := { s.status with ovr := true } }

/-- 10_state.md R25. A write of DATA at 0x04 while BUSY = 0 stores all of it and changes nothing else; a read
there returns it; no engine step writes it, CLEAR keeps it, and it is 0 after reset. -/
def Obligations.DataRegisterIsTheHosts : Prop :=
  (∀ (s : State) (v : Word) (rest : List Event), s.status.busy = false →
      s.events = .regWrite (s.regBase + 0x04) 32 v :: rest →
      step s = .next { s with events := rest, data := v })
    ∧ (∀ (s : State) (rest : List Event), s.events = .regRead (s.regBase + 0x04) 32 :: rest →
        step s = .next { s with events := rest, reply := .reg s.data })
    ∧ (∀ s : State, s.engineStep.data = s.data)
    ∧ (∀ s t : State, exec .clear s = .next t → t.data = s.data)
    ∧ State.reset.data = 0

/-- 10_state.md R26. A write of BASE at 0x08 while BUSY = 0 stores bits [31:2] and two zero bits, and a read
there returns them; the two low bits are 0 after every step from a state where they are; no engine step writes
BASE, CLEAR keeps it, and it is 0 after reset. -/
def Obligations.BaseRegisterLowBitsAreZero : Prop :=
  (∀ (s : State) (v : Word) (rest : List Event), s.status.busy = false →
      s.events = .regWrite (s.regBase + 0x08) 32 v :: rest →
      step s = .next { s with events := rest, base := v.extractLsb' 2 30 ++ 0#2 })
    ∧ (∀ (s : State) (rest : List Event), s.events = .regRead (s.regBase + 0x08) 32 :: rest →
        step s = .next { s with events := rest, reply := .reg s.base })
    ∧ (∀ s t : State, s.base.extractLsb' 0 2 = 0 → step s = .next t → t.base.extractLsb' 0 2 = 0)
    ∧ (∀ s : State, s.engineStep.base = s.base)
    ∧ (∀ s t : State, exec .clear s = .next t → t.base = s.base)
    ∧ State.reset.base = 0

/-- Derived from 10_state.md section 3 (R27). A write of LEN while BUSY = 0 stores any value unchecked; no
engine step writes LEN, CLEAR keeps it, and it is 0 after reset. -/
def Obligations.LenRegisterTakesAnyValue : Prop :=
  (∀ (s : State) (v : Word) (rest : List Event), s.status.busy = false →
      s.events = .regWrite (s.regBase + 0x0C) 32 v :: rest →
      step s = .next { s with events := rest, len := v })
    ∧ (∀ s : State, s.engineStep.len = s.len)
    ∧ (∀ s t : State, exec .clear s = .next t → t.len = s.len)
    ∧ State.reset.len = 0

/-- Derived from 20_memory.md section 1 (R61) and 93_implementation_defined.md U1. A step has a next state
exactly when its event is well formed: only a register access of another width, at a misaligned offset or
outside the window is refused, under a name of its own, and nothing else ever stops the machine. That an
access outside the window is refused is the model's choice (log entry 8). -/
def Obligations.StepRefusesExactlyIllFormedAccesses : Prop :=
  (∀ s : State, s.events = [] → ∃ t, step s = .next t)
    ∧ ∀ (s : State) (e : Event) (rest : List Event), s.events = e :: rest →
      (e.wf s.regBase = true → ∃ t, step s = .next t)
      ∧ (e.wf s.regBase = false → ∃ r, step s = .refused r
          ∧ (r = .registerAccessWidth ∨ r = .registerAccessMisaligned ∨ r = .outsideRegisterWindow))

/-! ## Command encoding -/

/-- Derived from 30_encoding.md section 2 (R102). The seven command words, and the words of OP 0x7 to 0xF, which
are no command. -/
def Obligations.CommandWordsOfTheOpcodeMap : Prop :=
  decode 0x00000000 = .ok .nop ∧ decode 0x00000001 = .ok .clear ∧ decode 0x00000002 = .ok .feed
    ∧ decode 0x00000003 = .ok .feedcrc ∧ decode 0x00000004 = .ok .latch
    ∧ decode 0x00000005 = .ok .verify ∧ decode 0x00000006 = .ok .patch
    ∧ ∀ c ∈ [0x00000007, 0x00000008, 0x00000009, 0x0000000A, 0x0000000B, 0x0000000C, 0x0000000D, 0x0000000E,
        (0x0000000F : Word)], decode c = .error .reservedOpcode

/-- Derived from 30_encoding.md section 2 (R102, R104). Decoding and encoding agree in both directions: a
word decodes to `i` exactly when it is the word of `i`, and every word that is illegal, and no other, is
rejected. -/
def Obligations.DecodeIsTheInverseOfEncode : Prop :=
  (∀ (c : Word) (i : Instr), decode c = .ok i ↔ c = encode i)
    ∧ ∀ c : Word, (∃ e, decode c = .error e) ↔ illegalWord c

/-- 60_exceptions.md R241. An illegal word written to CMD while BUSY = 0 sets ERR to ILLEGAL_CMD and
changes nothing else. -/
def Obligations.IllegalCommandChangesOnlyErr : Prop :=
  ∀ (s : State) (c : Word) (rest : List Event), s.status.busy = false → illegalWord c →
    s.events = .regWrite (s.regBase + 0x00) 32 c :: rest →
    step s = .next { s with events := rest, status := { s.status with err := .illegalCmd } }

/-- Derived from 30_encoding.md section 2 and 20_memory.md section 6 (R72). When the word about to be
written to CMD decodes to `i`, the step is `exec` of `i` at the state that has consumed the event. That
`exec` itself answers the drop while BUSY = 1 is the model's arrangement (log entry 5). -/
def Obligations.StepRunsTheDecodedCommand : Prop :=
  ∀ (s : State) (c : Word) (i : Instr) (rest : List Event), decode c = .ok i →
    s.events = .regWrite (s.regBase + 0x00) 32 c :: rest →
    step s = exec i { s with events := rest }

/-- Derived from 20_memory.md sections 3 and 6 (R68, R71, R74) and 43_sequencer.md section 1 (R206). The other
events. An outside read gets byte `a + i` as byte `i` and then has the platform's effect; an outside write leaves
each listed address at the byte listed last for it and every other address alone. How the order and these events
are held is the model's choice: that an empty list of events gives the engine's turn is log entry 4, that a
change of `MEM_ERR` is an event of its own log entry 3, that of the effects of reading log entry 11, that an
outside access is one event of any width log entry 14, and that a poll of WAIT puts an engine turn and the next
poll in front log entry 6. -/
def Obligations.StepTakesTheNextEvent : Prop :=
  ∀ s : State,
    (s.events = [] → step s = .next s.engineStep)
    ∧ (∀ rest, s.events = .engine :: rest → step s = .next { s with events := rest }.engineStep)
    ∧ (∀ a n rest, s.events = .memRead a n :: rest → ∃ bytes m,
        step s = .next { s with events := rest, reply := .mem bytes, mem := m }
        ∧ bytes.length = n ∧ (∀ i, i < n → bytes[i]? = some (s.mem.byteAt (a + BitVec.ofNat 32 i)))
        ∧ (s.mem.wf = true → ∀ x, m.byteAt x = (lastListed (s.readCells a n) x).getD (s.mem.byteAt x)))
    ∧ (∀ cells rest, s.events = .memWrite cells :: rest → ∃ m,
        step s = .next { s with events := rest, mem := m }
        ∧ (s.mem.wf = true → ∀ x, m.byteAt x = (lastListed cells x).getD (s.mem.byteAt x)))
    ∧ (∀ regions rest, s.events = .setMemErr regions :: rest →
        step s = .next { s with events := rest, memErr := regions })
    ∧ (∀ effects rest, s.events = .setReadEffects effects :: rest →
        step s = .next { s with events := rest, readEffects := effects })
    ∧ (∀ rest, s.events = .wait :: rest → s.status.busy = false →
        step s = .next { s with events := rest, reply := .reg s.status.word })
    ∧ (∀ rest, s.events = .wait :: rest → s.status.busy = true →
        step s = .next { s with events := .engine :: .wait :: rest, reply := .reg s.status.word })

/-! ## The commands -/

/-- 40_control.md R120. NOP, the word 0x00000000, sets ERR to NONE and changes nothing else. -/
def Obligations.NopOnlyClearsErr : Prop :=
  decode 0x00000000 = .ok .nop ∧ ∀ s : State, s.status.busy = false →
    exec .nop s = .next { s with status := { s.status with err := .none } }

/-- 40_control.md R121. CLEAR, the word 0x00000001, gives the datapath, the results and STATUS their reset
values and keeps DATA, BASE, LEN, PHASE and IDX; the state is then the reset state but for those; it is dropped
while BUSY; no other command clears OVR. -/
def Obligations.ClearStartsAFreshState : Prop :=
  decode 0x00000001 = .ok .clear
    ∧ (∀ s : State, s.status.busy = false →
    exec .clear s = .next { s with
      acc := 0, lanes := ⟨0, 0, 0, 0⟩, count := 0, pck := 0, plo := 0, phi := 0, readck := 0, faddr := 0
      status :=
        { busy := false, done := false, ckOk := false, crcOk := false, ovr := false, err := .none, last := .none } })
    ∧ (∀ s t : State, s.status.busy = false → s.phase = .idle → exec .clear s = .next t →
        t = { State.reset with
          data := s.data, base := s.base, len := s.len, idx := s.idx
          mem := s.mem, memErr := s.memErr, readEffects := s.readEffects, regBase := s.regBase
          events := s.events, reply := s.reply })
    ∧ (∀ s : State, s.status.busy = true →
        exec .clear s = .next { s with status := { s.status with ovr := true } })
    ∧ (∀ (i : Instr) (s t : State), i ≠ .clear → exec i s = .next t → s.status.ovr = true → t.status.ovr = true)

/-- 41_feed.md R134. FEED, the word 0x00000002, adds DATA to ACC modulo 2^32, feeds byte `i` of DATA to lane `i`
from its own old value, adds 4 to COUNT, and changes nothing else but ERR. -/
def Obligations.FeedUpdatesAccumulatorAndLanes : Prop :=
  decode 0x00000002 = .ok .feed ∧ ∀ s : State, s.status.busy = false →
    exec .feed s = .next { s with
      acc := s.acc + s.data, lanes := lanesFed s.lanes s.data, count := s.count + 4
      status := { s.status with err := .none } }

/-- 41_feed.md R135. FEEDCRC, the word 0x00000003, feeds the lanes only and counts; ACC is not changed; FEEDCRC
of `PLO` and then of `PHI` right after a LATCH drives every lane to 0. -/
def Obligations.FeedcrcUpdatesLanesOnly : Prop :=
  decode 0x00000003 = .ok .feedcrc
    ∧ (∀ s : State, s.status.busy = false →
    exec .feedcrc s = .next { s with
      lanes := lanesFed s.lanes s.data, count := s.count + 4, status := { s.status with err := .none } })
    ∧ ∀ s t u v : State, s.status.busy = false → exec .latch s = .next t →
        exec .feedcrc { t with data := t.plo } = .next u →
        exec .feedcrc { u with data := t.phi } = .next v → v.lanes = ⟨0, 0, 0, 0⟩

/-- 42_patch_writer.md R170, R171. LATCH, the word 0x00000004, captures `0 - ACC`, the low bytes and the high
bytes of the lanes, lane `i` in byte `i`, and changes nothing else but ERR. -/
def Obligations.LatchFormsThePatchWords : Prop :=
  decode 0x00000004 = .ok .latch ∧ ∀ s : State, s.status.busy = false →
    exec .latch s = .next { s with
      pck := 0x00000000 - s.acc
      plo := s.lanes.l3.extractLsb' 0 8 ++ s.lanes.l2.extractLsb' 0 8 ++ s.lanes.l1.extractLsb' 0 8
        ++ s.lanes.l0.extractLsb' 0 8
      phi := s.lanes.l3.extractLsb' 8 8 ++ s.lanes.l2.extractLsb' 8 8 ++ s.lanes.l1.extractLsb' 8 8
        ++ s.lanes.l0.extractLsb' 8 8
      status := { s.status with err := .none } }

/-- 43_sequencer.md R193. An accepted VERIFY or PATCH clears the datapath, the results, the verdicts and
DONE, records its kind, keeps OVR, and starts in BODY at offset 0, in the event of the CMD write. -/
def Obligations.AcceptedSequenceStartsInBody : Prop :=
  ∀ s : State,
    (s.accepts .verify → exec .verify s = .next { s with
      acc := 0, lanes := ⟨0, 0, 0, 0⟩, count := 0, pck := 0, plo := 0, phi := 0, readck := 0, faddr := 0
      status :=
        { busy := true, done := false, ckOk := false, crcOk := false, ovr := s.status.ovr
          err := .none, last := .verify }
      idx := 0, phase := .body })
    ∧ (s.accepts .patch → exec .patch s = .next { s with
      acc := 0, lanes := ⟨0, 0, 0, 0⟩, count := 0, pck := 0, plo := 0, phi := 0, readck := 0, faddr := 0
      status :=
        { busy := true, done := false, ckOk := false, crcOk := false, ovr := s.status.ovr
          err := .none, last := .patch }
      idx := 0, phase := .body })

/-- 60_exceptions.md R242. VERIFY with `LEN[1:0] != 0` or `LEN < 12`, and PATCH with `LEN[1:0] != 0` or
`LEN < 20`, set ERR to BAD_LENGTH and change nothing else. -/
def Obligations.BadLengthIsRejected : Prop :=
  ∀ s : State, s.status.busy = false →
    (s.len.extractLsb' 0 2 ≠ 0 ∨ s.len.toNat < 12 →
      exec .verify s = .next { s with status := { s.status with err := .badLength } })
    ∧ (s.len.extractLsb' 0 2 ≠ 0 ∨ s.len.toNat < 20 →
      exec .patch s = .next { s with status := { s.status with err := .badLength } })

/-- 60_exceptions.md R243. VERIFY or PATCH with a valid length but `BASE + LEN > 2^32` sets ERR to BAD_RANGE
and changes nothing else; an image that ends exactly at the top is accepted; addresses of an image that is
in range never wrap. -/
def Obligations.BadRangeIsRejected : Prop :=
  (∀ s : State, s.status.busy = false → s.len.extractLsb' 0 2 = 0 → s.base.toNat + s.len.toNat > 2 ^ 32 →
    (12 ≤ s.len.toNat → exec .verify s = .next { s with status := { s.status with err := .badRange } })
    ∧ (20 ≤ s.len.toNat → exec .patch s = .next { s with status := { s.status with err := .badRange } }))
    ∧ (∀ s : State, s.status.busy = false → s.len.extractLsb' 0 2 = 0 → s.base.toNat + s.len.toNat = 2 ^ 32 →
      (12 ≤ s.len.toNat → ∃ t, exec .verify s = .next t ∧ t.status.busy = true)
      ∧ (20 ≤ s.len.toNat → ∃ t, exec .patch s = .next t ∧ t.status.busy = true))
    ∧ (∀ (s : State) (off : Nat), s.base.toNat + s.len.toNat ≤ 2 ^ 32 → off < s.len.toNat →
      (s.imageAddr off).toNat = s.base.toNat + off)

/-- 60_exceptions.md R246. For one CMD write the conditions are checked in the order BUSY, ILLEGAL_CMD,
BAD_LENGTH, BAD_RANGE and only the first is reported; a step whose access fails ends the sequence, so that
no second access can fail. -/
def Obligations.ErrorPriorityOfACommandWrite : Prop :=
  (∀ (s : State) (c : Word) (rest : List Event), s.events = .regWrite (s.regBase + 0x00) 32 c :: rest →
    ∃ t, step s = .next t
      ∧ (s.status.busy = true → t.status = { s.status with ovr := true })
      ∧ (s.status.busy = false → illegalWord c → t.status.err = .illegalCmd)
      ∧ (s.status.busy = false → ¬ illegalWord c →
          let minimum := if c = 5 then 12 else 20
          let sequence := c = 5 ∨ c = 6
          let lengthBad := s.len.extractLsb' 0 2 ≠ 0 ∨ s.len.toNat < minimum
          let rangeBad := s.base.toNat + s.len.toNat > 2 ^ 32
          (sequence → lengthBad → t.status.err = .badLength)
          ∧ (sequence → ¬ lengthBad → rangeBad → t.status.err = .badRange)
          ∧ (¬ sequence ∨ (¬ lengthBad ∧ ¬ rangeBad) → t.status.err = .none)))
    ∧ ∀ (s : State) (x : Access), s.portAccess = some x → s.memErrAt x.addr x.dir = true →
        s.engineStep.portAccess = none

/-- Derived from 20_memory.md section 1 (R60) and the rules of each command. A command, run or dropped,
always completes; it leaves every byte of image memory, the operand registers, the platform's parameters
and the events to come as they were, and only VERIFY and PATCH move PHASE and IDX. -/
def Obligations.CommandsLeaveMemoryAndOperands : Prop :=
  ∀ (i : Instr) (s : State), ∃ t, exec i s = .next t
    ∧ (∀ a : Word, t.mem.byteAt a = s.mem.byteAt a)
    ∧ t.data = s.data ∧ t.base = s.base ∧ t.len = s.len
    ∧ t.regBase = s.regBase ∧ t.memErr = s.memErr ∧ t.readEffects = s.readEffects ∧ t.events = s.events
    ∧ t.reply = s.reply
    ∧ (i ≠ .verify → i ≠ .patch → t.phase = s.phase ∧ t.idx = s.idx)

/-! ## The CRC and the sum -/

/-- Derived from 41_feed.md section 2: the table made by R131 has the 256 values R132 lists. The spec marks
two details of R131 as general knowledge (log entry 12). -/
def Obligations.CrcTableHasTheListedValues : Prop :=
  listedTable.length = 256 ∧ ∀ n : Byte, listedTable[n.toNat]? = some (crcTable n)

/-- Derived from 41_feed.md section 3 (R136), which derives it. A lane that is fed its own low byte and
then its own old high byte holds 0, whatever it held. -/
def Obligations.LaneFedItsOwnBytesIsZero : Prop :=
  ∀ l : Lane, laneStep l (l.extractLsb' 0 8) = l >>> 8
    ∧ laneStep (laneStep l (l.extractLsb' 0 8)) (l.extractLsb' 8 8) = 0

/-- Derived from 41_feed.md section 3 (R137), which derives it. A run of zero bytes at the start of a
lane's stream leaves it at 0: the rest of the stream acts as if the run were not there. -/
def Obligations.LeadingZeroBytesLeaveTheLaneZero : Prop :=
  ∀ (n : Nat) (bytes : List Byte), laneOver (List.replicate n 0 ++ bytes) = laneOver bytes

/-- Derived from 42_patch_writer.md section 3 (R175) and 41_feed.md section 1 (R130). Feeding the latched
`PCK` to the accumulator makes it 0 modulo 2^32, and `READCK == 0 - ACC` exactly when
`ACC + READCK = 0`. -/
def Obligations.ChecksumWordCancelsTheSum : Prop :=
  (∀ s t : State, s.status.busy = false → exec .latch s = .next t →
    ∃ u, exec .feed { t with data := t.pck } = .next u ∧ u.acc = 0)
    ∧ ∀ acc readck : Word, readck = 0 - acc ↔ acc + readck = 0

/-- Derived from 70_reset_and_hazards.md section 2 (R285), 30_encoding.md R106's FEEDW and 41_feed.md
section 1. The primitive route: CLEAR, a FEEDW for each word, LATCH. ACC is the sum of the words, the same
in any order; the lanes are fed the words in order; the patch words are formed from both. -/
def Obligations.PrimitiveRouteFormsThePatchWords : Prop :=
  ∀ (s : State) (ws : List Word), s.status.busy = false →
    s.events = hostEvents s.regBase ([.cmd .clear] ++ ws.flatMap pseudoFeedW ++ [.cmd .latch]) →
    ∃ t, Host.Core.run Sys2Proof.core (2 * ws.length + 2) s = .next t
      ∧ t.events = [] ∧ t.acc = ws.sum ∧ (∀ ws', ws.Perm ws' → t.acc = ws'.sum)
      ∧ t.lanes = ws.foldl lanesFed ⟨0, 0, 0, 0⟩ ∧ t.count = BitVec.ofNat 32 (4 * ws.length)
      ∧ t.pck = 0 - ws.sum ∧ t.plo = crcLowWord t.lanes ∧ t.phi = crcHighWord t.lanes
      ∧ t.status.err = .none ∧ t.mem = s.mem

/-! ## Image memory -/

/-- 20_memory.md R63 (and R65, which derives the bytes). A word read from `a` is the little-endian value of its
four bytes, and its byte `i` is `m[a+i]`. -/
def Obligations.WordReadIsLittleEndian : Prop :=
  ∀ (m : Memory) (a : Word),
    (m.readWord a).toNat = (m.byteAt a).toNat + 2 ^ 8 * (m.byteAt (a + 1)).toNat
      + 2 ^ 16 * (m.byteAt (a + 2)).toNat + 2 ^ 24 * (m.byteAt (a + 3)).toNat
    ∧ (m.readWord a).extractLsb' 0 8 = m.byteAt a
    ∧ (m.readWord a).extractLsb' 8 8 = m.byteAt (a + 1)
    ∧ (m.readWord a).extractLsb' 16 8 = m.byteAt (a + 2)
    ∧ (m.readWord a).extractLsb' 24 8 = m.byteAt (a + 3)

/-- Derived from 20_memory.md section 2 (R64, which derives it). A word written at `a` sets its four bytes
little-endian and no other, and reads back as it was written. -/
def Obligations.WordWriteIsLittleEndian : Prop :=
  ∀ (m : Memory) (a v : Word), m.wf = true →
    (m.writeWord a v).byteAt a = v.extractLsb' 0 8
    ∧ (m.writeWord a v).byteAt (a + 1) = v.extractLsb' 8 8
    ∧ (m.writeWord a v).byteAt (a + 2) = v.extractLsb' 16 8
    ∧ (m.writeWord a v).byteAt (a + 3) = v.extractLsb' 24 8
    ∧ (∀ x, ¬ inWord a x → (m.writeWord a v).byteAt x = m.byteAt x)
    ∧ (m.writeWord a v).readWord a = v

/-! ## The sequencer's steps -/

/-- 43_sequencer.md R194, R195. The BODY read step: the word at `B + IDX` is put on the port, read and fed
to the sum and the lanes, but in PATCH at offset 4 the word fed is `N`; COUNT and IDX grow by 4; nothing
else changes but what the platform makes of the read (20_memory.md R68). -/
def Obligations.BodyStepFeedsTheNextWord : Prop :=
  ∀ s : State, s.phase = .body → s.idx.toNat + 12 < s.len.toNat →
    s.portAccess = some (.read (s.base + s.idx))
    ∧ (s.memErrAt (s.base + s.idx) .read = false →
        ∀ w, w = (if s.status.last = .patch ∧ s.idx = 4 then s.len else s.mem.readWord (s.base + s.idx)) →
        s.engineStep = { s with
          acc := s.acc + w, lanes := lanesFed s.lanes w, count := s.count + 4, idx := s.idx + 4
          mem := s.memAfterRead (s.base + s.idx) 4 })

/-- 43_sequencer.md R196. The BODY latch step makes no access, forms the patch words, and goes on to RDCK in
VERIFY and to LENW otherwise. -/
def Obligations.BodyEndsWithTheLatch : Prop :=
  ∀ s : State, s.phase = .body → s.idx.toNat + 12 = s.len.toNat →
    s.portAccess = none
    ∧ s.engineStep = { s with
        pck := 0 - s.acc
        plo := s.lanes.l3.extractLsb' 0 8 ++ s.lanes.l2.extractLsb' 0 8 ++ s.lanes.l1.extractLsb' 0 8
          ++ s.lanes.l0.extractLsb' 0 8
        phi := s.lanes.l3.extractLsb' 8 8 ++ s.lanes.l2.extractLsb' 8 8 ++ s.lanes.l1.extractLsb' 8 8
          ++ s.lanes.l0.extractLsb' 8 8
        phase := if s.status.last = .verify then .rdck else .lenw }

/-- 43_sequencer.md R197, R198, R199. The three steps of VERIFY's tail and their reads: the checksum word goes
to READCK only; the CRC words go to the lanes only; the last step writes both verdicts and finishes. Image
memory is as the platform leaves it after the read (20_memory.md R68). -/
def Obligations.VerifyTailReadsTheTrailer : Prop :=
  (∀ s : State, s.phase = .rdck →
    s.portAccess = some (.read (s.base + s.len - 12))
    ∧ (s.memErrAt (s.base + s.len - 12) .read = false →
      s.engineStep = { s with
        readck := s.mem.readWord (s.base + s.len - 12), phase := .crclo
        mem := s.memAfterRead (s.base + s.len - 12) 4 }))
    ∧ (∀ s : State, s.phase = .crclo →
      s.portAccess = some (.read (s.base + s.len - 8))
      ∧ (s.memErrAt (s.base + s.len - 8) .read = false →
        s.engineStep = { s with
          lanes := lanesFed s.lanes (s.mem.readWord (s.base + s.len - 8)), count := s.count + 4
          phase := .crchi, mem := s.memAfterRead (s.base + s.len - 8) 4 }))
    ∧ (∀ s : State, s.phase = .crchi →
      s.portAccess = some (.read (s.base + s.len - 4))
      ∧ (s.memErrAt (s.base + s.len - 4) .read = false →
        ∀ ls, ls = lanesFed s.lanes (s.mem.readWord (s.base + s.len - 4)) →
        s.engineStep = { s with
          lanes := ls, count := s.count + 4
          status := { s.status with
            busy := false, done := true, ckOk := decide (s.readck = s.pck)
            crcOk := decide (ls.l0 = 0 ∧ ls.l1 = 0 ∧ ls.l2 = 0 ∧ ls.l3 = 0) }
          phase := .idle, mem := s.memAfterRead (s.base + s.len - 4) 4 }))

/-- 43_sequencer.md R200, R201, R202, R203. The four write steps of PATCH: the length field, the checksum word,
the CRC-low word, the CRC-high word; the last one finishes. Only these steps write, and every byte outside the
word written reads as before. -/
def Obligations.PatchTailWritesFourWords : Prop :=
  (∀ s : State, s.phase = .lenw →
    s.portAccess = some (.write (s.base + 4) s.len)
    ∧ (s.memErrAt (s.base + 4) .write = false →
      s.engineStep = { s with mem := s.mem.writeWord (s.base + 4) s.len, phase := .wck }))
    ∧ (∀ s : State, s.phase = .wck →
      s.portAccess = some (.write (s.base + s.len - 12) s.pck)
      ∧ (s.memErrAt (s.base + s.len - 12) .write = false →
        s.engineStep = { s with mem := s.mem.writeWord (s.base + s.len - 12) s.pck, phase := .wlo }))
    ∧ (∀ s : State, s.phase = .wlo →
      s.portAccess = some (.write (s.base + s.len - 8) s.plo)
      ∧ (s.memErrAt (s.base + s.len - 8) .write = false →
        s.engineStep = { s with mem := s.mem.writeWord (s.base + s.len - 8) s.plo, phase := .whi }))
    ∧ (∀ s : State, s.phase = .whi →
      s.portAccess = some (.write (s.base + s.len - 4) s.phi)
      ∧ (s.memErrAt (s.base + s.len - 4) .write = false →
        s.engineStep = { s with
          mem := s.mem.writeWord (s.base + s.len - 4) s.phi, phase := .idle
          status := { s.status with busy := false, done := true } }))
    ∧ (∀ (s : State) (a v : Word), s.portAccess = some (.write a v) →
      (s.phase = .lenw ∨ s.phase = .wck ∨ s.phase = .wlo ∨ s.phase = .whi)
      ∧ (s.mem.wf = true → ∀ x, ¬ inWord a x → s.engineStep.mem.byteAt x = s.mem.byteAt x))

/-- 43_sequencer.md R204, 60_exceptions.md R244. A step whose access has `MEM_ERR` makes no access: it sets
ERR to MEM_FAULT, FADDR to the address, BUSY to 0, DONE to 1 and PHASE to IDLE, and changes nothing else;
the verdicts of a running sequence stay 0. -/
def Obligations.MemFaultAbortsTheSequence : Prop :=
  ∀ (s : State) (x : Access), s.portAccess = some x → s.memErrAt x.addr x.dir = true →
    s.engineStep = { s with
      status := { s.status with err := .memFault, busy := false, done := true }
      faddr := x.addr, phase := .idle }
    ∧ (s.Inv → s.engineStep.status.ckOk = false ∧ s.engineStep.status.crcOk = false)

/-- Derived from 60_exceptions.md section 5 (R255) and 20_memory.md section 6 (R73). While BUSY = 0 the
engine's turn makes no access and changes nothing: every access of a sequence has been made. -/
def Obligations.NoAccessWhileNotBusy : Prop :=
  ∀ s : State, s.Inv → s.status.busy = false → s.portAccess = none ∧ s.engineStep = s

/-! ## The invariant and the whole machine -/

/-- Derived from 10_state.md section 8. The reset state has the invariant; that its image memory lists
nothing is the model's choice (log entry 1). -/
def Obligations.ResetHasTheInvariant : Prop := State.reset.Inv

/-- Derived from 10_state.md R26, R46, R48, 60_exceptions.md R242, R243 and 43_sequencer.md R190, R193. Every
step, under any event, keeps the invariant: PHASE is IDLE exactly when BUSY = 0, BASE stays aligned, a
running sequence has a checked length and range, no error, no verdict, and COUNT = IDX in BODY; image
memory keeps its canonical form. -/
def Obligations.EveryStepKeepsTheInvariant : Prop :=
  ∀ s t : State, s.Inv → step s = .next t → t.Inv

/-- Derived from 20_memory.md sections 1 and 3 (R66, which derives it, and R62). Every access the engine
puts on the port is aligned and lies, all four bytes, inside the image and inside the 2^32-byte space. -/
def Obligations.PortAccessesAreAlignedInsideTheImage : Prop :=
  ∀ (s : State) (x : Access), s.Inv → s.portAccess = some x →
    x.addr.toNat % 4 = 0 ∧ s.base.toNat ≤ x.addr.toNat
      ∧ x.addr.toNat + 4 ≤ s.base.toNat + s.len.toNat ∧ x.addr.toNat + 4 ≤ 2 ^ 32

/-- Derived from 20_memory.md sections 1 and 3 (R62, R68). What a step changes in image memory is what an
agent outside the engine writes in that very event, or is what the platform makes of a read performed in it,
or lies in the length field or the trailer of the image a running PATCH owns; VERIFY writes nothing. -/
def Obligations.MemoryChangesOnlyByTheHostOrPatch : Prop :=
  ∀ (s t : State) (x : Word), s.Inv → step s = .next t → t.mem.byteAt x ≠ s.mem.byteAt x →
    (∃ cells rest, s.events = .memWrite cells :: rest ∧ ∃ c ∈ cells, c.1 = x)
    ∨ (∃ a n, ((s.engineTurn ∧ s.portAccess = some (.read a) ∧ s.memErrAt a .read = false ∧ n = 4)
          ∨ ∃ rest, s.events = .memRead a n :: rest)
        ∧ ∃ c ∈ s.readCells a n, c.1 = x)
    ∨ (s.engineTurn ∧ s.status.busy = true ∧ s.status.last = .patch ∧ s.inImage x
        ∧ (inWord (s.base + 4) x ∨ s.base.toNat + s.len.toNat ≤ x.toNat + 12))

/-- 10_state.md R29. BUSY goes to 1 only, and always, when a VERIFY or PATCH is accepted; it goes to 0 only
by the engine step that finishes or aborts the sequence, which always clears it, or by reset. -/
def Obligations.BusyIsWrittenByStartAndFinish : Prop :=
  ∀ s t : State, s.Inv → step s = .next t →
    (s.status.busy = false → (t.status.busy = true ↔ s.starts .verify ∨ s.starts .patch))
    ∧ (s.status.busy = true → t.status.busy = false →
        (s.engineTurn ∧ t.status.done = true ∧ t.phase = .idle) ∨ s.resets)
    ∧ (s.engineTurn → s.phase ≠ .idle → t.phase = .idle → t.status.busy = false)
    ∧ (s.resets → t.status.busy = false)

/-- 10_state.md R30. DONE is set to 0 when a sequence is accepted, to 1 by the step that finishes or aborts
it, to 0 by CLEAR and reset, and by nothing else. -/
def Obligations.DoneIsWrittenByStartFinishAndClear : Prop :=
  ∀ s t : State, s.Inv → step s = .next t →
    (s.starts .verify ∨ s.starts .patch ∨ s.issues .clear ∨ s.resets → t.status.done = false)
    ∧ (s.engineTurn → s.phase ≠ .idle → t.phase = .idle → t.status.done = true)
    ∧ (t.status.done ≠ s.status.done →
        s.starts .verify ∨ s.starts .patch ∨ s.issues .clear ∨ s.resets
        ∨ (s.engineTurn ∧ s.phase ≠ .idle ∧ t.phase = .idle))

/-- Derived from 10_state.md section 5 (R31, R32). A verdict goes to 1 only in the CRCHI step of a VERIFY
whose access does not fail, as the comparison it is; it goes to 0 only when a sequence is accepted and by
CLEAR and reset. -/
def Obligations.VerdictsAreWrittenByTheLastVerifyStep : Prop :=
  ∀ s t : State, s.Inv → step s = .next t →
    (t.status.ckOk ≠ s.status.ckOk ∨ t.status.crcOk ≠ s.status.crcOk →
      (s.engineTurn ∧ s.phase = .crchi ∧ s.status.last = .verify
        ∧ s.memErrAt (s.base + s.len - 4) .read = false
        ∧ t.status.ckOk = decide (s.readck = s.pck)
        ∧ t.status.crcOk = decide (t.lanes = ⟨0, 0, 0, 0⟩))
      ∨ (t.status.ckOk = false ∧ t.status.crcOk = false
        ∧ (s.starts .verify ∨ s.starts .patch ∨ s.issues .clear ∨ s.resets)))

/-- 10_state.md R33. OVR goes to 1 exactly when a host write to CMD, DATA, BASE or LEN meets BUSY = 1; it
goes to 0 only, and always, by CLEAR and reset. -/
def Obligations.OvrIsSticky : Prop :=
  ∀ s t : State, step s = .next t →
    (s.status.ovr = false →
      (t.status.ovr = true ↔
        s.status.busy = true ∧ ∃ off ∈ [0x00, 0x04, 0x08, 0x0C], ∃ v, s.writesReg off v))
    ∧ (s.status.ovr = true → (t.status.ovr = false ↔ s.issues .clear ∨ s.resets))

/-- 10_state.md R35. LAST is written with the kind when a sequence is accepted, keeps it when the sequence
ends, and goes to none only by CLEAR and reset; a rejected command does not change it. -/
def Obligations.LastIsWrittenAtAcceptance : Prop :=
  ∀ s t : State, step s = .next t →
    (s.starts .verify → t.status.last = .verify)
    ∧ (s.starts .patch → t.status.last = .patch)
    ∧ (s.issues .clear ∨ s.resets → t.status.last = .none)
    ∧ (t.status.last ≠ s.status.last →
        s.starts .verify ∨ s.starts .patch ∨ s.issues .clear ∨ s.resets)

/-- Derived from 10_state.md section 5 (R34) and 60_exceptions.md section 1 (R240). ERR changes only by a CMD
write made while BUSY = 0, by a step whose access fails, which writes MEM_FAULT, and by reset, which writes
NONE. -/
def Obligations.ErrIsWrittenByCommandsAndMemFaults : Prop :=
  ∀ s t : State, step s = .next t → t.status.err ≠ s.status.err →
    (s.status.busy = false ∧ ∃ c, s.writesReg 0x00 c)
    ∨ (s.engineTurn ∧ t.status.err = .memFault
        ∧ ∃ x, s.portAccess = some x ∧ s.memErrAt x.addr x.dir = true ∧ t.faddr = x.addr)
    ∨ (s.resets ∧ t.status.err = .none)

/-- Derived from 10_state.md sections 2 and 4 (R22, R24, R36, R37, R38). Who writes the reported registers:
ACC only FEED and BODY steps, READCK only the RDCK step, FADDR only an aborted step, the patch words only
LATCH and the BODY latch step, COUNT only the feeds; CLEAR, the start of a sequence and reset set all of
them to 0. -/
def Obligations.WritersOfTheReportedRegisters : Prop :=
  ∀ s t : State, s.Inv → step s = .next t →
    (s.starts .verify ∨ s.starts .patch ∨ s.issues .clear ∨ s.resets →
      t.acc = 0 ∧ t.lanes = ⟨0, 0, 0, 0⟩ ∧ t.count = 0 ∧ t.pck = 0 ∧ t.plo = 0 ∧ t.phi = 0
        ∧ t.readck = 0 ∧ t.faddr = 0)
    ∧ (¬ (s.starts .verify ∨ s.starts .patch ∨ s.issues .clear ∨ s.resets) →
      (t.acc ≠ s.acc → s.issues .feed ∨ (s.engineTurn ∧ s.phase = .body))
      ∧ (t.lanes ≠ s.lanes → s.issues .feed ∨ s.issues .feedcrc
          ∨ (s.engineTurn ∧ (s.phase = .body ∨ s.phase = .crclo ∨ s.phase = .crchi)))
      ∧ (t.count ≠ s.count → t.count = s.count + 4
          ∧ (s.issues .feed ∨ s.issues .feedcrc
            ∨ (s.engineTurn ∧ (s.phase = .body ∨ s.phase = .crclo ∨ s.phase = .crchi))))
      ∧ (t.pck ≠ s.pck ∨ t.plo ≠ s.plo ∨ t.phi ≠ s.phi →
          s.issues .latch ∨ (s.engineTurn ∧ s.phase = .body ∧ s.idx.toNat + 12 = s.len.toNat))
      ∧ (t.readck ≠ s.readck → s.engineTurn ∧ s.phase = .rdck)
      ∧ (t.faddr ≠ s.faddr → s.engineTurn ∧ t.status.err = .memFault))

/-! ## Whole sequences -/

/-- Derived from 43_sequencer.md section 1 (R206). While a sequence runs, the engine's turn either aborts it
or takes exactly one of the steps it has left, and an event that is neither an engine turn nor a reset leaves it
running with the steps it had; an accepted VERIFY has (N-12)/4 + 4 steps and an accepted PATCH (N-12)/4 + 5. -/
def Obligations.EveryTurnTakesOneStepOfTheSequence : Prop :=
  (∀ s : State, s.Inv → s.status.busy = true →
    (∃ x, s.portAccess = some x ∧ s.memErrAt x.addr x.dir = true ∧ s.engineStep.status.busy = false)
    ∨ s.engineStep.stepsLeft + 1 = s.stepsLeft)
    ∧ (∀ s t : State, s.Inv → s.status.busy = true → ¬ s.engineTurn → ¬ s.resets → step s = .next t →
        t.status.busy = true ∧ t.stepsLeft = s.stepsLeft)
    ∧ (∀ s t : State, s.accepts .verify → exec .verify s = .next t →
        t.stepsLeft = (s.len.toNat - 12) / 4 + 4)
    ∧ (∀ s t : State, s.accepts .patch → exec .patch s = .next t →
        t.stepsLeft = (s.len.toNat - 12) / 4 + 5)

/-- Derived from 43_sequencer.md section 1 (R206). When no access fails and no host event comes between, an
accepted VERIFY is busy for exactly (N-12)/4 + 4 steps and an accepted PATCH for (N-12)/4 + 5, and then
done without error. -/
def Obligations.SequenceTakesExactlyItsSteps : Prop :=
  ∀ (s t : State) (k : SeqKind) (i : Instr) (n : Nat),
    (k = .verify ∧ i = .verify ∧ n = (s.len.toNat - 12) / 4 + 4)
      ∨ (k = .patch ∧ i = .patch ∧ n = (s.len.toNat - 12) / 4 + 5) →
    s.Inv → s.accepts k → s.events = [] → (∀ a d, s.memErrAt a d = false) → exec i s = .next t →
    (∀ j, j < n → ∃ u, Host.Core.run Sys2Proof.core j t = .next u ∧ u.status.busy = true)
    ∧ ∃ u, Host.Core.run Sys2Proof.core n t = .next u ∧ u.status.busy = false ∧ u.status.done = true
        ∧ u.status.err = .none ∧ u.phase = .idle

/-- Derived from 43_sequencer.md section 1 (R206) and 20_memory.md section 7 (R77). A sequence ends whatever
accesses fail and whatever well-formed events come between, each in any place: within the steps it has left when
no event is to come, and otherwise within the events to come and two steps for each step left (one of them for a
poll of WAIT, log entry 6); with DONE = 1 unless a reset was among the events. -/
def Obligations.SequenceAlwaysEnds : Prop :=
  (∀ s : State, s.Inv → s.events = [] →
    ∃ n, n ≤ s.stepsLeft ∧ ∃ t, Host.Core.run Sys2Proof.core n s = .next t
      ∧ t.status.busy = false ∧ t.phase = .idle ∧ (s.status.busy = true → t.status.done = true))
  ∧ ∀ s : State, s.Inv → (∀ e ∈ s.events, e.wf s.regBase = true) →
    ∃ n, n ≤ s.events.length + 2 * s.stepsLeft ∧ ∃ t, Host.Core.run Sys2Proof.core n s = .next t
      ∧ t.status.busy = false ∧ t.phase = .idle
      ∧ (s.status.busy = true → (∀ e ∈ s.events, e ≠ .reset) → t.status.done = true)

/-- Derived from 30_encoding.md section 3 (R105); that polls and engine steps alternate is the model's choice
(log entry 6). WAIT always ends, with the host holding a STATUS whose BUSY is 0 and the later events
untouched. -/
def Obligations.WaitEndsWithBusyZero : Prop :=
  ∀ (s : State) (rest : List Event), s.Inv → s.events = .wait :: rest →
    ∃ n t, Host.Core.run Sys2Proof.core n s = .next t
      ∧ t.events = rest ∧ t.status.busy = false ∧ t.reply = .reg t.status.word
      ∧ t.status.word.getLsbD 0 = false

/-- Derived from 20_memory.md sections 3 and 5 (R68, R70). The accesses of a sequence: VERIFY reads every word
of the image once in ascending order; PATCH reads the body in ascending order and then writes the length field
and the three trailer words. No access is made twice. Left to itself the engine makes exactly the accesses
before the first one `MEM_ERR` flags. Under every interleaving with events that are no reset it makes them in
order, all of them when the sequence ends without error, and otherwise those before the one that failed, whose
address FADDR holds. -/
def Obligations.SequenceMakesExactlyItsAccesses : Prop :=
  ∀ (s t : State) (k : SeqKind) (i : Instr),
    (k = .verify ∧ i = .verify) ∨ (k = .patch ∧ i = .patch) →
    s.Inv → s.accepts k → exec i s = .next t →
    (s.sequenceAccesses k).Nodup
    ∧ (∀ n, t.accessTrace n <+: s.sequenceAccesses k)
    ∧ (∀ n, s.bodyLength + 5 ≤ n →
        t.accessTrace n = (s.sequenceAccesses k).takeWhile fun x => !s.memErrAt x.1 x.2)
    ∧ (∀ trace u, TracedRun t trace u →
        trace <+: s.sequenceAccesses k
        ∧ (u.status.busy = false →
            (u.status.err = .none ∧ trace = s.sequenceAccesses k)
            ∨ (u.status.err = .memFault ∧ ∃ d, trace ++ [(u.faddr, d)] <+: s.sequenceAccesses k)))

/-- Derived from 20_memory.md section 6 (R71, R74) and 70_reset_and_hazards.md section 3 (R292). A host write of a
word made just before the engine's step reads that word is what the step reads: a body word is fed as written
(but PATCH feeds `N` at offset 4 and not the host's word), the checksum word goes to READCK, the CRC words to the
lanes. -/
def Obligations.HostWriteIsSeenByTheNextRead : Prop :=
  ∀ (s : State) (a w : Word) (rest : List Event), s.Inv → s.portAccess = some (.read a) →
    s.memErrAt a .read = false → s.events = HostOp.event s.regBase (.wrm a w) :: .engine :: rest →
    ∃ t, Host.Core.run Sys2Proof.core 2 s = .next t ∧ t.events = rest
      ∧ (s.phase = .body → s.status.last = .verify ∨ s.idx ≠ 4 →
          t.acc = s.acc + w ∧ t.lanes = lanesFed s.lanes w)
      ∧ (s.phase = .body → s.status.last = .patch → s.idx = 4 →
          t.acc = s.acc + s.len ∧ t.lanes = lanesFed s.lanes s.len)
      ∧ (s.phase = .rdck → t.readck = w)
      ∧ (s.phase = .crclo ∨ s.phase = .crchi → t.lanes = lanesFed s.lanes w)

/-- Derived from 43_sequencer.md section 7 (R210), which derives it. The closed form of a VERIFY that ends
without error, under every interleaving of host and engine events in which no one, the platform's effects of
reading included, writes to the image and no reset comes: the registers, both verdicts and the STATUS word; the image keeps every byte. -/
def Obligations.VerifyClosedForm : Prop :=
  ∀ (mayWrite : Word → Prop) (s t u : State), s.Inv → (∀ a, mayWrite a → ¬ s.inImage a) →
    s.accepts .verify → exec .verify s = .next t → SequenceRun mayWrite t u → u.status.err = .none →
    u.acc = s.bodySum .verify
    ∧ u.pck = 0 - s.bodySum .verify
    ∧ u.plo = crcLowWord (s.bodyLanes .verify) ∧ u.phi = crcHighWord (s.bodyLanes .verify)
    ∧ u.readck = s.mem.readWord (s.imageAddr (4 * s.bodyLength))
    ∧ u.lanes = s.verifyLanes
    ∧ u.count = s.len - 4
    ∧ u.status.ckOk = decide (s.mem.readWord (s.imageAddr (4 * s.bodyLength)) = 0 - s.bodySum .verify)
    ∧ u.status.crcOk = decide (s.verifyLanes = ⟨0, 0, 0, 0⟩)
    ∧ u.status.word = 0x00001002 ||| ((BitVec.ofBool u.status.ckOk).setWidth 32 <<< 2)
        ||| ((BitVec.ofBool u.status.crcOk).setWidth 32 <<< 3)
        ||| ((BitVec.ofBool u.status.ovr).setWidth 32 <<< 4)
    ∧ (∀ a, s.inImage a → u.mem.byteAt a = s.mem.byteAt a)

/-- Derived from 43_sequencer.md section 7 (R211) and 42_patch_writer.md section 1 (R174), which derive it.
The closed form of a PATCH that ends without error, under every interleaving in which no one, the platform's
effects of reading included, writes to the image and no reset comes: the body word at offset 4 counts as `N`; afterwards the length field holds `N`,
the trailer holds the patch words byte for byte, and every other byte that no one else may write is
unchanged. -/
def Obligations.PatchClosedForm : Prop :=
  ∀ (mayWrite : Word → Prop) (s t u : State), s.Inv → (∀ a, mayWrite a → ¬ s.inImage a) →
    s.accepts .patch → exec .patch s = .next t → SequenceRun mayWrite t u → u.status.err = .none →
    u.acc = s.bodySum .patch
    ∧ u.pck = 0 - s.bodySum .patch
    ∧ u.lanes = s.bodyLanes .patch
    ∧ u.plo = crcLowWord u.lanes ∧ u.phi = crcHighWord u.lanes
    ∧ u.readck = 0 ∧ u.count = s.len - 12
    ∧ u.status.word = 0x00002002 ||| ((BitVec.ofBool u.status.ovr).setWidth 32 <<< 4)
    ∧ u.mem.readWord (s.imageAddr 4) = s.len
    ∧ u.mem.readWord (s.imageAddr (s.len.toNat - 12)) = u.pck
    ∧ u.mem.byteAt (s.imageAddr (s.len.toNat - 8)) = u.lanes.l0.extractLsb' 0 8
    ∧ u.mem.byteAt (s.imageAddr (s.len.toNat - 7)) = u.lanes.l1.extractLsb' 0 8
    ∧ u.mem.byteAt (s.imageAddr (s.len.toNat - 6)) = u.lanes.l2.extractLsb' 0 8
    ∧ u.mem.byteAt (s.imageAddr (s.len.toNat - 5)) = u.lanes.l3.extractLsb' 0 8
    ∧ u.mem.byteAt (s.imageAddr (s.len.toNat - 4)) = u.lanes.l0.extractLsb' 8 8
    ∧ u.mem.byteAt (s.imageAddr (s.len.toNat - 3)) = u.lanes.l1.extractLsb' 8 8
    ∧ u.mem.byteAt (s.imageAddr (s.len.toNat - 2)) = u.lanes.l2.extractLsb' 8 8
    ∧ u.mem.byteAt (s.imageAddr (s.len.toNat - 1)) = u.lanes.l3.extractLsb' 8 8
    ∧ (∀ a, ¬ mayWrite a → ¬ inWord (s.imageAddr 4) a → ¬ inWord (s.imageAddr (s.len.toNat - 12)) a →
        ¬ inWord (s.imageAddr (s.len.toNat - 8)) a → ¬ inWord (s.imageAddr (s.len.toNat - 4)) a →
        u.mem.byteAt a = s.mem.byteAt a)

/-- Derived from 43_sequencer.md section 7 (R207), which derives it. Round trip: a VERIFY over the image a
PATCH has finished, with the image untouched in between, gives both verdicts 1. -/
def Obligations.PatchThenVerifyPasses : Prop :=
  ∀ (mayWrite mayWrite' : Word → Prop) (s t u s' t' u' : State), s.Inv → s'.Inv →
    (∀ a, mayWrite a → ¬ s.inImage a) → (∀ a, mayWrite' a → ¬ s.inImage a) →
    s.accepts .patch → exec .patch s = .next t → SequenceRun mayWrite t u → u.status.err = .none →
    s'.base = s.base → s'.len = s.len → s'.status.busy = false →
    (∀ a, s.inImage a → s'.mem.byteAt a = u.mem.byteAt a) →
    exec .verify s' = .next t' → SequenceRun mayWrite' t' u' → u'.status.err = .none →
    u'.status.ckOk = true ∧ u'.status.crcOk = true

/-- Derived from 43_sequencer.md section 7 (R208), which derives it. Idempotence: a second PATCH over the
image a PATCH has finished leaves the image byte-identical. -/
def Obligations.SecondPatchChangesNothing : Prop :=
  ∀ (mayWrite mayWrite' : Word → Prop) (s t u s' t' u' : State), s.Inv → s'.Inv →
    (∀ a, mayWrite a → ¬ s.inImage a) → (∀ a, mayWrite' a → ¬ s.inImage a) →
    s.accepts .patch → exec .patch s = .next t → SequenceRun mayWrite t u → u.status.err = .none →
    s'.base = s.base → s'.len = s.len → s'.status.busy = false →
    (∀ a, s.inImage a → s'.mem.byteAt a = u.mem.byteAt a) →
    exec .patch s' = .next t' → SequenceRun mayWrite' t' u' → u'.status.err = .none →
    ∀ a, s.inImage a → u'.mem.byteAt a = u.mem.byteAt a

/-- Derived from 20_memory.md section 3 (R68) and 93_implementation_defined.md U10. A read has the effect the
platform gives it, once: in the engine's step that performs it, and in none that makes no read or whose read
`MEM_ERR` flags. That an effect belongs to a range of addresses, writes listed bytes, and happens whenever a read
touches its range, several in their order, is the model's choice (log entry 11). -/
def Obligations.ReadHasThePlatformsEffectOnce : Prop :=
  ∀ s : State,
    (∀ a n, s.readEffects = [] → s.readCells a n = [])
    ∧ (∀ a n e es, s.readEffects = e :: es →
        ((∃ i, i < n ∧ e.lo ≤ a + BitVec.ofNat 32 i ∧ a + BitVec.ofNat 32 i ≤ e.hi) →
          s.readCells a n = e.cells ++ { s with readEffects := es }.readCells a n)
        ∧ ((∀ i, i < n → ¬ (e.lo ≤ a + BitVec.ofNat 32 i ∧ a + BitVec.ofNat 32 i ≤ e.hi)) →
          s.readCells a n = { s with readEffects := es }.readCells a n))
    ∧ (∀ a, s.mem.wf = true → s.portAccess = some (.read a) → s.memErrAt a .read = false →
        ∀ x, s.engineStep.mem.byteAt x = (lastListed (s.readCells a 4) x).getD (s.mem.byteAt x))
    ∧ (∀ a, s.portAccess = some a → s.memErrAt a.addr a.dir = true → s.engineStep.mem = s.mem)
    ∧ (s.portAccess = none → s.engineStep.mem = s.mem)
    ∧ s.engineStep.readEffects = s.readEffects
end

