-- ==== Sys2Proof/Laws/State.lean ====
section
/-! SUPPORT. What each named update of State leaves in each field: one lemma per field per update. -/

namespace Sys2Proof.Machine

/-! ### `State.raiseError` -/

@[simp] theorem State.raiseError_acc (s : State) (code : ErrCode) : (s.raiseError code).acc = s.acc := rfl
@[simp] theorem State.raiseError_lanes (s : State) (code : ErrCode) : (s.raiseError code).lanes = s.lanes := rfl
@[simp] theorem State.raiseError_count (s : State) (code : ErrCode) : (s.raiseError code).count = s.count := rfl
@[simp] theorem State.raiseError_data (s : State) (code : ErrCode) : (s.raiseError code).data = s.data := rfl
@[simp] theorem State.raiseError_base (s : State) (code : ErrCode) : (s.raiseError code).base = s.base := rfl
@[simp] theorem State.raiseError_len (s : State) (code : ErrCode) : (s.raiseError code).len = s.len := rfl
@[simp] theorem State.raiseError_pck (s : State) (code : ErrCode) : (s.raiseError code).pck = s.pck := rfl
@[simp] theorem State.raiseError_plo (s : State) (code : ErrCode) : (s.raiseError code).plo = s.plo := rfl
@[simp] theorem State.raiseError_phi (s : State) (code : ErrCode) : (s.raiseError code).phi = s.phi := rfl
@[simp] theorem State.raiseError_readck (s : State) (code : ErrCode) : (s.raiseError code).readck = s.readck := rfl
@[simp] theorem State.raiseError_faddr (s : State) (code : ErrCode) : (s.raiseError code).faddr = s.faddr := rfl
@[simp] theorem State.raiseError_status (s : State) (code : ErrCode) : (s.raiseError code).status = { s.status with err := code } := rfl
@[simp] theorem State.raiseError_phase (s : State) (code : ErrCode) : (s.raiseError code).phase = s.phase := rfl
@[simp] theorem State.raiseError_idx (s : State) (code : ErrCode) : (s.raiseError code).idx = s.idx := rfl
@[simp] theorem State.raiseError_mem (s : State) (code : ErrCode) : (s.raiseError code).mem = s.mem := rfl
@[simp] theorem State.raiseError_memErr (s : State) (code : ErrCode) : (s.raiseError code).memErr = s.memErr := rfl
@[simp] theorem State.raiseError_readEffects (s : State) (code : ErrCode) : (s.raiseError code).readEffects = s.readEffects := rfl
@[simp] theorem State.raiseError_regBase (s : State) (code : ErrCode) : (s.raiseError code).regBase = s.regBase := rfl
@[simp] theorem State.raiseError_events (s : State) (code : ErrCode) : (s.raiseError code).events = s.events := rfl
@[simp] theorem State.raiseError_reply (s : State) (code : ErrCode) : (s.raiseError code).reply = s.reply := rfl

/-! ### `State.finish` -/

@[simp] theorem State.finish_acc (s : State) : (s.finish).acc = s.acc := rfl
@[simp] theorem State.finish_lanes (s : State) : (s.finish).lanes = s.lanes := rfl
@[simp] theorem State.finish_count (s : State) : (s.finish).count = s.count := rfl
@[simp] theorem State.finish_data (s : State) : (s.finish).data = s.data := rfl
@[simp] theorem State.finish_base (s : State) : (s.finish).base = s.base := rfl
@[simp] theorem State.finish_len (s : State) : (s.finish).len = s.len := rfl
@[simp] theorem State.finish_pck (s : State) : (s.finish).pck = s.pck := rfl
@[simp] theorem State.finish_plo (s : State) : (s.finish).plo = s.plo := rfl
@[simp] theorem State.finish_phi (s : State) : (s.finish).phi = s.phi := rfl
@[simp] theorem State.finish_readck (s : State) : (s.finish).readck = s.readck := rfl
@[simp] theorem State.finish_faddr (s : State) : (s.finish).faddr = s.faddr := rfl
@[simp] theorem State.finish_status (s : State) : (s.finish).status = { s.status with busy := false, done := true } := rfl
@[simp] theorem State.finish_phase (s : State) : (s.finish).phase = .idle := rfl
@[simp] theorem State.finish_idx (s : State) : (s.finish).idx = s.idx := rfl
@[simp] theorem State.finish_mem (s : State) : (s.finish).mem = s.mem := rfl
@[simp] theorem State.finish_memErr (s : State) : (s.finish).memErr = s.memErr := rfl
@[simp] theorem State.finish_readEffects (s : State) : (s.finish).readEffects = s.readEffects := rfl
@[simp] theorem State.finish_regBase (s : State) : (s.finish).regBase = s.regBase := rfl
@[simp] theorem State.finish_events (s : State) : (s.finish).events = s.events := rfl
@[simp] theorem State.finish_reply (s : State) : (s.finish).reply = s.reply := rfl

/-! ### `State.memFault` -/

@[simp] theorem State.memFault_acc (s : State) (a : Word) : (s.memFault a).acc = s.acc := rfl
@[simp] theorem State.memFault_lanes (s : State) (a : Word) : (s.memFault a).lanes = s.lanes := rfl
@[simp] theorem State.memFault_count (s : State) (a : Word) : (s.memFault a).count = s.count := rfl
@[simp] theorem State.memFault_data (s : State) (a : Word) : (s.memFault a).data = s.data := rfl
@[simp] theorem State.memFault_base (s : State) (a : Word) : (s.memFault a).base = s.base := rfl
@[simp] theorem State.memFault_len (s : State) (a : Word) : (s.memFault a).len = s.len := rfl
@[simp] theorem State.memFault_pck (s : State) (a : Word) : (s.memFault a).pck = s.pck := rfl
@[simp] theorem State.memFault_plo (s : State) (a : Word) : (s.memFault a).plo = s.plo := rfl
@[simp] theorem State.memFault_phi (s : State) (a : Word) : (s.memFault a).phi = s.phi := rfl
@[simp] theorem State.memFault_readck (s : State) (a : Word) : (s.memFault a).readck = s.readck := rfl
@[simp] theorem State.memFault_faddr (s : State) (a : Word) : (s.memFault a).faddr = a := rfl
@[simp] theorem State.memFault_status (s : State) (a : Word) : (s.memFault a).status = { s.status with err := .memFault, busy := false, done := true } := rfl
@[simp] theorem State.memFault_phase (s : State) (a : Word) : (s.memFault a).phase = .idle := rfl
@[simp] theorem State.memFault_idx (s : State) (a : Word) : (s.memFault a).idx = s.idx := rfl
@[simp] theorem State.memFault_mem (s : State) (a : Word) : (s.memFault a).mem = s.mem := rfl
@[simp] theorem State.memFault_memErr (s : State) (a : Word) : (s.memFault a).memErr = s.memErr := rfl
@[simp] theorem State.memFault_readEffects (s : State) (a : Word) : (s.memFault a).readEffects = s.readEffects := rfl
@[simp] theorem State.memFault_regBase (s : State) (a : Word) : (s.memFault a).regBase = s.regBase := rfl
@[simp] theorem State.memFault_events (s : State) (a : Word) : (s.memFault a).events = s.events := rfl
@[simp] theorem State.memFault_reply (s : State) (a : Word) : (s.memFault a).reply = s.reply := rfl

/-! ### `State.dropWrite` -/

@[simp] theorem State.dropWrite_acc (s : State) : (s.dropWrite).acc = s.acc := rfl
@[simp] theorem State.dropWrite_lanes (s : State) : (s.dropWrite).lanes = s.lanes := rfl
@[simp] theorem State.dropWrite_count (s : State) : (s.dropWrite).count = s.count := rfl
@[simp] theorem State.dropWrite_data (s : State) : (s.dropWrite).data = s.data := rfl
@[simp] theorem State.dropWrite_base (s : State) : (s.dropWrite).base = s.base := rfl
@[simp] theorem State.dropWrite_len (s : State) : (s.dropWrite).len = s.len := rfl
@[simp] theorem State.dropWrite_pck (s : State) : (s.dropWrite).pck = s.pck := rfl
@[simp] theorem State.dropWrite_plo (s : State) : (s.dropWrite).plo = s.plo := rfl
@[simp] theorem State.dropWrite_phi (s : State) : (s.dropWrite).phi = s.phi := rfl
@[simp] theorem State.dropWrite_readck (s : State) : (s.dropWrite).readck = s.readck := rfl
@[simp] theorem State.dropWrite_faddr (s : State) : (s.dropWrite).faddr = s.faddr := rfl
@[simp] theorem State.dropWrite_status (s : State) : (s.dropWrite).status = { s.status with ovr := true } := rfl
@[simp] theorem State.dropWrite_phase (s : State) : (s.dropWrite).phase = s.phase := rfl
@[simp] theorem State.dropWrite_idx (s : State) : (s.dropWrite).idx = s.idx := rfl
@[simp] theorem State.dropWrite_mem (s : State) : (s.dropWrite).mem = s.mem := rfl
@[simp] theorem State.dropWrite_memErr (s : State) : (s.dropWrite).memErr = s.memErr := rfl
@[simp] theorem State.dropWrite_readEffects (s : State) : (s.dropWrite).readEffects = s.readEffects := rfl
@[simp] theorem State.dropWrite_regBase (s : State) : (s.dropWrite).regBase = s.regBase := rfl
@[simp] theorem State.dropWrite_events (s : State) : (s.dropWrite).events = s.events := rfl
@[simp] theorem State.dropWrite_reply (s : State) : (s.dropWrite).reply = s.reply := rfl

/-! ### `State.feedLanes` -/

@[simp] theorem State.feedLanes_acc (s : State) (w : Word) : (s.feedLanes w).acc = s.acc := rfl
@[simp] theorem State.feedLanes_lanes (s : State) (w : Word) : (s.feedLanes w).lanes = s.lanes.feed w := rfl
@[simp] theorem State.feedLanes_count (s : State) (w : Word) : (s.feedLanes w).count = s.count + 4 := rfl
@[simp] theorem State.feedLanes_data (s : State) (w : Word) : (s.feedLanes w).data = s.data := rfl
@[simp] theorem State.feedLanes_base (s : State) (w : Word) : (s.feedLanes w).base = s.base := rfl
@[simp] theorem State.feedLanes_len (s : State) (w : Word) : (s.feedLanes w).len = s.len := rfl
@[simp] theorem State.feedLanes_pck (s : State) (w : Word) : (s.feedLanes w).pck = s.pck := rfl
@[simp] theorem State.feedLanes_plo (s : State) (w : Word) : (s.feedLanes w).plo = s.plo := rfl
@[simp] theorem State.feedLanes_phi (s : State) (w : Word) : (s.feedLanes w).phi = s.phi := rfl
@[simp] theorem State.feedLanes_readck (s : State) (w : Word) : (s.feedLanes w).readck = s.readck := rfl
@[simp] theorem State.feedLanes_faddr (s : State) (w : Word) : (s.feedLanes w).faddr = s.faddr := rfl
@[simp] theorem State.feedLanes_status (s : State) (w : Word) : (s.feedLanes w).status = s.status := rfl
@[simp] theorem State.feedLanes_phase (s : State) (w : Word) : (s.feedLanes w).phase = s.phase := rfl
@[simp] theorem State.feedLanes_idx (s : State) (w : Word) : (s.feedLanes w).idx = s.idx := rfl
@[simp] theorem State.feedLanes_mem (s : State) (w : Word) : (s.feedLanes w).mem = s.mem := rfl
@[simp] theorem State.feedLanes_memErr (s : State) (w : Word) : (s.feedLanes w).memErr = s.memErr := rfl
@[simp] theorem State.feedLanes_readEffects (s : State) (w : Word) : (s.feedLanes w).readEffects = s.readEffects := rfl
@[simp] theorem State.feedLanes_regBase (s : State) (w : Word) : (s.feedLanes w).regBase = s.regBase := rfl
@[simp] theorem State.feedLanes_events (s : State) (w : Word) : (s.feedLanes w).events = s.events := rfl
@[simp] theorem State.feedLanes_reply (s : State) (w : Word) : (s.feedLanes w).reply = s.reply := rfl

/-! ### `State.feedWord` -/

@[simp] theorem State.feedWord_acc (s : State) (w : Word) : (s.feedWord w).acc = s.acc + w := rfl
@[simp] theorem State.feedWord_lanes (s : State) (w : Word) : (s.feedWord w).lanes = s.lanes.feed w := rfl
@[simp] theorem State.feedWord_count (s : State) (w : Word) : (s.feedWord w).count = s.count + 4 := rfl
@[simp] theorem State.feedWord_data (s : State) (w : Word) : (s.feedWord w).data = s.data := rfl
@[simp] theorem State.feedWord_base (s : State) (w : Word) : (s.feedWord w).base = s.base := rfl
@[simp] theorem State.feedWord_len (s : State) (w : Word) : (s.feedWord w).len = s.len := rfl
@[simp] theorem State.feedWord_pck (s : State) (w : Word) : (s.feedWord w).pck = s.pck := rfl
@[simp] theorem State.feedWord_plo (s : State) (w : Word) : (s.feedWord w).plo = s.plo := rfl
@[simp] theorem State.feedWord_phi (s : State) (w : Word) : (s.feedWord w).phi = s.phi := rfl
@[simp] theorem State.feedWord_readck (s : State) (w : Word) : (s.feedWord w).readck = s.readck := rfl
@[simp] theorem State.feedWord_faddr (s : State) (w : Word) : (s.feedWord w).faddr = s.faddr := rfl
@[simp] theorem State.feedWord_status (s : State) (w : Word) : (s.feedWord w).status = s.status := rfl
@[simp] theorem State.feedWord_phase (s : State) (w : Word) : (s.feedWord w).phase = s.phase := rfl
@[simp] theorem State.feedWord_idx (s : State) (w : Word) : (s.feedWord w).idx = s.idx := rfl
@[simp] theorem State.feedWord_mem (s : State) (w : Word) : (s.feedWord w).mem = s.mem := rfl
@[simp] theorem State.feedWord_memErr (s : State) (w : Word) : (s.feedWord w).memErr = s.memErr := rfl
@[simp] theorem State.feedWord_readEffects (s : State) (w : Word) : (s.feedWord w).readEffects = s.readEffects := rfl
@[simp] theorem State.feedWord_regBase (s : State) (w : Word) : (s.feedWord w).regBase = s.regBase := rfl
@[simp] theorem State.feedWord_events (s : State) (w : Word) : (s.feedWord w).events = s.events := rfl
@[simp] theorem State.feedWord_reply (s : State) (w : Word) : (s.feedWord w).reply = s.reply := rfl

/-! ### `State.latchWords` -/

@[simp] theorem State.latchWords_acc (s : State) : (s.latchWords).acc = s.acc := rfl
@[simp] theorem State.latchWords_lanes (s : State) : (s.latchWords).lanes = s.lanes := rfl
@[simp] theorem State.latchWords_count (s : State) : (s.latchWords).count = s.count := rfl
@[simp] theorem State.latchWords_data (s : State) : (s.latchWords).data = s.data := rfl
@[simp] theorem State.latchWords_base (s : State) : (s.latchWords).base = s.base := rfl
@[simp] theorem State.latchWords_len (s : State) : (s.latchWords).len = s.len := rfl
@[simp] theorem State.latchWords_pck (s : State) : (s.latchWords).pck = checksumWord s.acc := rfl
@[simp] theorem State.latchWords_plo (s : State) : (s.latchWords).plo = crcLowWord s.lanes := rfl
@[simp] theorem State.latchWords_phi (s : State) : (s.latchWords).phi = crcHighWord s.lanes := rfl
@[simp] theorem State.latchWords_readck (s : State) : (s.latchWords).readck = s.readck := rfl
@[simp] theorem State.latchWords_faddr (s : State) : (s.latchWords).faddr = s.faddr := rfl
@[simp] theorem State.latchWords_status (s : State) : (s.latchWords).status = s.status := rfl
@[simp] theorem State.latchWords_phase (s : State) : (s.latchWords).phase = s.phase := rfl
@[simp] theorem State.latchWords_idx (s : State) : (s.latchWords).idx = s.idx := rfl
@[simp] theorem State.latchWords_mem (s : State) : (s.latchWords).mem = s.mem := rfl
@[simp] theorem State.latchWords_memErr (s : State) : (s.latchWords).memErr = s.memErr := rfl
@[simp] theorem State.latchWords_readEffects (s : State) : (s.latchWords).readEffects = s.readEffects := rfl
@[simp] theorem State.latchWords_regBase (s : State) : (s.latchWords).regBase = s.regBase := rfl
@[simp] theorem State.latchWords_events (s : State) : (s.latchWords).events = s.events := rfl
@[simp] theorem State.latchWords_reply (s : State) : (s.latchWords).reply = s.reply := rfl

/-! ### `State.startSequence` -/

@[simp] theorem State.startSequence_acc (s : State) (k : SeqKind) : (s.startSequence k).acc = 0 := rfl
@[simp] theorem State.startSequence_lanes (s : State) (k : SeqKind) : (s.startSequence k).lanes = Lanes.init := rfl
@[simp] theorem State.startSequence_count (s : State) (k : SeqKind) : (s.startSequence k).count = 0 := rfl
@[simp] theorem State.startSequence_data (s : State) (k : SeqKind) : (s.startSequence k).data = s.data := rfl
@[simp] theorem State.startSequence_base (s : State) (k : SeqKind) : (s.startSequence k).base = s.base := rfl
@[simp] theorem State.startSequence_len (s : State) (k : SeqKind) : (s.startSequence k).len = s.len := rfl
@[simp] theorem State.startSequence_pck (s : State) (k : SeqKind) : (s.startSequence k).pck = 0 := rfl
@[simp] theorem State.startSequence_plo (s : State) (k : SeqKind) : (s.startSequence k).plo = 0 := rfl
@[simp] theorem State.startSequence_phi (s : State) (k : SeqKind) : (s.startSequence k).phi = 0 := rfl
@[simp] theorem State.startSequence_readck (s : State) (k : SeqKind) : (s.startSequence k).readck = 0 := rfl
@[simp] theorem State.startSequence_faddr (s : State) (k : SeqKind) : (s.startSequence k).faddr = 0 := rfl
@[simp] theorem State.startSequence_status (s : State) (k : SeqKind) : (s.startSequence k).status = { s.status with ckOk := false, crcOk := false, done := false, last := k, busy := true } := rfl
@[simp] theorem State.startSequence_phase (s : State) (k : SeqKind) : (s.startSequence k).phase = .body := rfl
@[simp] theorem State.startSequence_idx (s : State) (k : SeqKind) : (s.startSequence k).idx = 0 := rfl
@[simp] theorem State.startSequence_mem (s : State) (k : SeqKind) : (s.startSequence k).mem = s.mem := rfl
@[simp] theorem State.startSequence_memErr (s : State) (k : SeqKind) : (s.startSequence k).memErr = s.memErr := rfl
@[simp] theorem State.startSequence_readEffects (s : State) (k : SeqKind) : (s.startSequence k).readEffects = s.readEffects := rfl
@[simp] theorem State.startSequence_regBase (s : State) (k : SeqKind) : (s.startSequence k).regBase = s.regBase := rfl
@[simp] theorem State.startSequence_events (s : State) (k : SeqKind) : (s.startSequence k).events = s.events := rfl
@[simp] theorem State.startSequence_reply (s : State) (k : SeqKind) : (s.startSequence k).reply = s.reply := rfl

/-! ### `State.clearAll` -/

@[simp] theorem State.clearAll_acc (s : State) : (s.clearAll).acc = 0 := rfl
@[simp] theorem State.clearAll_lanes (s : State) : (s.clearAll).lanes = Lanes.init := rfl
@[simp] theorem State.clearAll_count (s : State) : (s.clearAll).count = 0 := rfl
@[simp] theorem State.clearAll_data (s : State) : (s.clearAll).data = s.data := rfl
@[simp] theorem State.clearAll_base (s : State) : (s.clearAll).base = s.base := rfl
@[simp] theorem State.clearAll_len (s : State) : (s.clearAll).len = s.len := rfl
@[simp] theorem State.clearAll_pck (s : State) : (s.clearAll).pck = 0 := rfl
@[simp] theorem State.clearAll_plo (s : State) : (s.clearAll).plo = 0 := rfl
@[simp] theorem State.clearAll_phi (s : State) : (s.clearAll).phi = 0 := rfl
@[simp] theorem State.clearAll_readck (s : State) : (s.clearAll).readck = 0 := rfl
@[simp] theorem State.clearAll_faddr (s : State) : (s.clearAll).faddr = 0 := rfl
@[simp] theorem State.clearAll_status (s : State) : (s.clearAll).status = { Status.zero with busy := s.status.busy } := rfl
@[simp] theorem State.clearAll_phase (s : State) : (s.clearAll).phase = s.phase := rfl
@[simp] theorem State.clearAll_idx (s : State) : (s.clearAll).idx = s.idx := rfl
@[simp] theorem State.clearAll_mem (s : State) : (s.clearAll).mem = s.mem := rfl
@[simp] theorem State.clearAll_memErr (s : State) : (s.clearAll).memErr = s.memErr := rfl
@[simp] theorem State.clearAll_readEffects (s : State) : (s.clearAll).readEffects = s.readEffects := rfl
@[simp] theorem State.clearAll_regBase (s : State) : (s.clearAll).regBase = s.regBase := rfl
@[simp] theorem State.clearAll_events (s : State) : (s.clearAll).events = s.events := rfl
@[simp] theorem State.clearAll_reply (s : State) : (s.clearAll).reply = s.reply := rfl

/-! ### `State.applyReset` -/

@[simp] theorem State.applyReset_acc (s : State) : (s.applyReset).acc = 0 := rfl
@[simp] theorem State.applyReset_lanes (s : State) : (s.applyReset).lanes = Lanes.init := rfl
@[simp] theorem State.applyReset_count (s : State) : (s.applyReset).count = 0 := rfl
@[simp] theorem State.applyReset_data (s : State) : (s.applyReset).data = 0 := rfl
@[simp] theorem State.applyReset_base (s : State) : (s.applyReset).base = 0 := rfl
@[simp] theorem State.applyReset_len (s : State) : (s.applyReset).len = 0 := rfl
@[simp] theorem State.applyReset_pck (s : State) : (s.applyReset).pck = 0 := rfl
@[simp] theorem State.applyReset_plo (s : State) : (s.applyReset).plo = 0 := rfl
@[simp] theorem State.applyReset_phi (s : State) : (s.applyReset).phi = 0 := rfl
@[simp] theorem State.applyReset_readck (s : State) : (s.applyReset).readck = 0 := rfl
@[simp] theorem State.applyReset_faddr (s : State) : (s.applyReset).faddr = 0 := rfl
@[simp] theorem State.applyReset_status (s : State) : (s.applyReset).status = Status.zero := rfl
@[simp] theorem State.applyReset_phase (s : State) : (s.applyReset).phase = .idle := rfl
@[simp] theorem State.applyReset_idx (s : State) : (s.applyReset).idx = 0 := rfl
@[simp] theorem State.applyReset_mem (s : State) : (s.applyReset).mem = s.mem := rfl
@[simp] theorem State.applyReset_memErr (s : State) : (s.applyReset).memErr = s.memErr := rfl
@[simp] theorem State.applyReset_readEffects (s : State) : (s.applyReset).readEffects = s.readEffects := rfl
@[simp] theorem State.applyReset_regBase (s : State) : (s.applyReset).regBase = s.regBase := rfl
@[simp] theorem State.applyReset_events (s : State) : (s.applyReset).events = s.events := rfl
@[simp] theorem State.applyReset_reply (s : State) : (s.applyReset).reply = s.reply := rfl

/-! ### `State.writeVerdicts` -/

@[simp] theorem State.writeVerdicts_acc (s : State) : (s.writeVerdicts).acc = s.acc := rfl
@[simp] theorem State.writeVerdicts_lanes (s : State) : (s.writeVerdicts).lanes = s.lanes := rfl
@[simp] theorem State.writeVerdicts_count (s : State) : (s.writeVerdicts).count = s.count := rfl
@[simp] theorem State.writeVerdicts_data (s : State) : (s.writeVerdicts).data = s.data := rfl
@[simp] theorem State.writeVerdicts_base (s : State) : (s.writeVerdicts).base = s.base := rfl
@[simp] theorem State.writeVerdicts_len (s : State) : (s.writeVerdicts).len = s.len := rfl
@[simp] theorem State.writeVerdicts_pck (s : State) : (s.writeVerdicts).pck = s.pck := rfl
@[simp] theorem State.writeVerdicts_plo (s : State) : (s.writeVerdicts).plo = s.plo := rfl
@[simp] theorem State.writeVerdicts_phi (s : State) : (s.writeVerdicts).phi = s.phi := rfl
@[simp] theorem State.writeVerdicts_readck (s : State) : (s.writeVerdicts).readck = s.readck := rfl
@[simp] theorem State.writeVerdicts_faddr (s : State) : (s.writeVerdicts).faddr = s.faddr := rfl
@[simp] theorem State.writeVerdicts_status (s : State) : (s.writeVerdicts).status = { s.status with ckOk := s.checksumVerdict, crcOk := s.crcVerdict } := rfl
@[simp] theorem State.writeVerdicts_phase (s : State) : (s.writeVerdicts).phase = s.phase := rfl
@[simp] theorem State.writeVerdicts_idx (s : State) : (s.writeVerdicts).idx = s.idx := rfl
@[simp] theorem State.writeVerdicts_mem (s : State) : (s.writeVerdicts).mem = s.mem := rfl
@[simp] theorem State.writeVerdicts_memErr (s : State) : (s.writeVerdicts).memErr = s.memErr := rfl
@[simp] theorem State.writeVerdicts_readEffects (s : State) : (s.writeVerdicts).readEffects = s.readEffects := rfl
@[simp] theorem State.writeVerdicts_regBase (s : State) : (s.writeVerdicts).regBase = s.regBase := rfl
@[simp] theorem State.writeVerdicts_events (s : State) : (s.writeVerdicts).events = s.events := rfl
@[simp] theorem State.writeVerdicts_reply (s : State) : (s.writeVerdicts).reply = s.reply := rfl

/-! ### `State.bodyReadStep` -/

@[simp] theorem State.bodyReadStep_acc (s : State) (w : Word) : (s.bodyReadStep w).acc = s.acc + s.bodyWord w := rfl
@[simp] theorem State.bodyReadStep_lanes (s : State) (w : Word) : (s.bodyReadStep w).lanes = s.lanes.feed (s.bodyWord w) := rfl
@[simp] theorem State.bodyReadStep_count (s : State) (w : Word) : (s.bodyReadStep w).count = s.count + 4 := rfl
@[simp] theorem State.bodyReadStep_data (s : State) (w : Word) : (s.bodyReadStep w).data = s.data := rfl
@[simp] theorem State.bodyReadStep_base (s : State) (w : Word) : (s.bodyReadStep w).base = s.base := rfl
@[simp] theorem State.bodyReadStep_len (s : State) (w : Word) : (s.bodyReadStep w).len = s.len := rfl
@[simp] theorem State.bodyReadStep_pck (s : State) (w : Word) : (s.bodyReadStep w).pck = s.pck := rfl
@[simp] theorem State.bodyReadStep_plo (s : State) (w : Word) : (s.bodyReadStep w).plo = s.plo := rfl
@[simp] theorem State.bodyReadStep_phi (s : State) (w : Word) : (s.bodyReadStep w).phi = s.phi := rfl
@[simp] theorem State.bodyReadStep_readck (s : State) (w : Word) : (s.bodyReadStep w).readck = s.readck := rfl
@[simp] theorem State.bodyReadStep_faddr (s : State) (w : Word) : (s.bodyReadStep w).faddr = s.faddr := rfl
@[simp] theorem State.bodyReadStep_status (s : State) (w : Word) : (s.bodyReadStep w).status = s.status := rfl
@[simp] theorem State.bodyReadStep_phase (s : State) (w : Word) : (s.bodyReadStep w).phase = s.phase := rfl
@[simp] theorem State.bodyReadStep_idx (s : State) (w : Word) : (s.bodyReadStep w).idx = s.idx + 4 := rfl
@[simp] theorem State.bodyReadStep_mem (s : State) (w : Word) : (s.bodyReadStep w).mem = s.mem := rfl
@[simp] theorem State.bodyReadStep_memErr (s : State) (w : Word) : (s.bodyReadStep w).memErr = s.memErr := rfl
@[simp] theorem State.bodyReadStep_readEffects (s : State) (w : Word) : (s.bodyReadStep w).readEffects = s.readEffects := rfl
@[simp] theorem State.bodyReadStep_regBase (s : State) (w : Word) : (s.bodyReadStep w).regBase = s.regBase := rfl
@[simp] theorem State.bodyReadStep_events (s : State) (w : Word) : (s.bodyReadStep w).events = s.events := rfl
@[simp] theorem State.bodyReadStep_reply (s : State) (w : Word) : (s.bodyReadStep w).reply = s.reply := rfl

/-! ### `State.bodyLatchStep` -/

@[simp] theorem State.bodyLatchStep_acc (s : State) : (s.bodyLatchStep).acc = s.acc := rfl
@[simp] theorem State.bodyLatchStep_lanes (s : State) : (s.bodyLatchStep).lanes = s.lanes := rfl
@[simp] theorem State.bodyLatchStep_count (s : State) : (s.bodyLatchStep).count = s.count := rfl
@[simp] theorem State.bodyLatchStep_data (s : State) : (s.bodyLatchStep).data = s.data := rfl
@[simp] theorem State.bodyLatchStep_base (s : State) : (s.bodyLatchStep).base = s.base := rfl
@[simp] theorem State.bodyLatchStep_len (s : State) : (s.bodyLatchStep).len = s.len := rfl
@[simp] theorem State.bodyLatchStep_pck (s : State) : (s.bodyLatchStep).pck = checksumWord s.acc := rfl
@[simp] theorem State.bodyLatchStep_plo (s : State) : (s.bodyLatchStep).plo = crcLowWord s.lanes := rfl
@[simp] theorem State.bodyLatchStep_phi (s : State) : (s.bodyLatchStep).phi = crcHighWord s.lanes := rfl
@[simp] theorem State.bodyLatchStep_readck (s : State) : (s.bodyLatchStep).readck = s.readck := rfl
@[simp] theorem State.bodyLatchStep_faddr (s : State) : (s.bodyLatchStep).faddr = s.faddr := rfl
@[simp] theorem State.bodyLatchStep_status (s : State) : (s.bodyLatchStep).status = s.status := rfl
@[simp] theorem State.bodyLatchStep_phase (s : State) : (s.bodyLatchStep).phase = if s.status.last = .verify then .rdck else .lenw := rfl
@[simp] theorem State.bodyLatchStep_idx (s : State) : (s.bodyLatchStep).idx = s.idx := rfl
@[simp] theorem State.bodyLatchStep_mem (s : State) : (s.bodyLatchStep).mem = s.mem := rfl
@[simp] theorem State.bodyLatchStep_memErr (s : State) : (s.bodyLatchStep).memErr = s.memErr := rfl
@[simp] theorem State.bodyLatchStep_readEffects (s : State) : (s.bodyLatchStep).readEffects = s.readEffects := rfl
@[simp] theorem State.bodyLatchStep_regBase (s : State) : (s.bodyLatchStep).regBase = s.regBase := rfl
@[simp] theorem State.bodyLatchStep_events (s : State) : (s.bodyLatchStep).events = s.events := rfl
@[simp] theorem State.bodyLatchStep_reply (s : State) : (s.bodyLatchStep).reply = s.reply := rfl

/-! ### `State.rdckStep` -/

@[simp] theorem State.rdckStep_acc (s : State) (w : Word) : (s.rdckStep w).acc = s.acc := rfl
@[simp] theorem State.rdckStep_lanes (s : State) (w : Word) : (s.rdckStep w).lanes = s.lanes := rfl
@[simp] theorem State.rdckStep_count (s : State) (w : Word) : (s.rdckStep w).count = s.count := rfl
@[simp] theorem State.rdckStep_data (s : State) (w : Word) : (s.rdckStep w).data = s.data := rfl
@[simp] theorem State.rdckStep_base (s : State) (w : Word) : (s.rdckStep w).base = s.base := rfl
@[simp] theorem State.rdckStep_len (s : State) (w : Word) : (s.rdckStep w).len = s.len := rfl
@[simp] theorem State.rdckStep_pck (s : State) (w : Word) : (s.rdckStep w).pck = s.pck := rfl
@[simp] theorem State.rdckStep_plo (s : State) (w : Word) : (s.rdckStep w).plo = s.plo := rfl
@[simp] theorem State.rdckStep_phi (s : State) (w : Word) : (s.rdckStep w).phi = s.phi := rfl
@[simp] theorem State.rdckStep_readck (s : State) (w : Word) : (s.rdckStep w).readck = w := rfl
@[simp] theorem State.rdckStep_faddr (s : State) (w : Word) : (s.rdckStep w).faddr = s.faddr := rfl
@[simp] theorem State.rdckStep_status (s : State) (w : Word) : (s.rdckStep w).status = s.status := rfl
@[simp] theorem State.rdckStep_phase (s : State) (w : Word) : (s.rdckStep w).phase = .crclo := rfl
@[simp] theorem State.rdckStep_idx (s : State) (w : Word) : (s.rdckStep w).idx = s.idx := rfl
@[simp] theorem State.rdckStep_mem (s : State) (w : Word) : (s.rdckStep w).mem = s.mem := rfl
@[simp] theorem State.rdckStep_memErr (s : State) (w : Word) : (s.rdckStep w).memErr = s.memErr := rfl
@[simp] theorem State.rdckStep_readEffects (s : State) (w : Word) : (s.rdckStep w).readEffects = s.readEffects := rfl
@[simp] theorem State.rdckStep_regBase (s : State) (w : Word) : (s.rdckStep w).regBase = s.regBase := rfl
@[simp] theorem State.rdckStep_events (s : State) (w : Word) : (s.rdckStep w).events = s.events := rfl
@[simp] theorem State.rdckStep_reply (s : State) (w : Word) : (s.rdckStep w).reply = s.reply := rfl

/-! ### `State.crcloStep` -/

@[simp] theorem State.crcloStep_acc (s : State) (w : Word) : (s.crcloStep w).acc = s.acc := rfl
@[simp] theorem State.crcloStep_lanes (s : State) (w : Word) : (s.crcloStep w).lanes = s.lanes.feed w := rfl
@[simp] theorem State.crcloStep_count (s : State) (w : Word) : (s.crcloStep w).count = s.count + 4 := rfl
@[simp] theorem State.crcloStep_data (s : State) (w : Word) : (s.crcloStep w).data = s.data := rfl
@[simp] theorem State.crcloStep_base (s : State) (w : Word) : (s.crcloStep w).base = s.base := rfl
@[simp] theorem State.crcloStep_len (s : State) (w : Word) : (s.crcloStep w).len = s.len := rfl
@[simp] theorem State.crcloStep_pck (s : State) (w : Word) : (s.crcloStep w).pck = s.pck := rfl
@[simp] theorem State.crcloStep_plo (s : State) (w : Word) : (s.crcloStep w).plo = s.plo := rfl
@[simp] theorem State.crcloStep_phi (s : State) (w : Word) : (s.crcloStep w).phi = s.phi := rfl
@[simp] theorem State.crcloStep_readck (s : State) (w : Word) : (s.crcloStep w).readck = s.readck := rfl
@[simp] theorem State.crcloStep_faddr (s : State) (w : Word) : (s.crcloStep w).faddr = s.faddr := rfl
@[simp] theorem State.crcloStep_status (s : State) (w : Word) : (s.crcloStep w).status = s.status := rfl
@[simp] theorem State.crcloStep_phase (s : State) (w : Word) : (s.crcloStep w).phase = .crchi := rfl
@[simp] theorem State.crcloStep_idx (s : State) (w : Word) : (s.crcloStep w).idx = s.idx := rfl
@[simp] theorem State.crcloStep_mem (s : State) (w : Word) : (s.crcloStep w).mem = s.mem := rfl
@[simp] theorem State.crcloStep_memErr (s : State) (w : Word) : (s.crcloStep w).memErr = s.memErr := rfl
@[simp] theorem State.crcloStep_readEffects (s : State) (w : Word) : (s.crcloStep w).readEffects = s.readEffects := rfl
@[simp] theorem State.crcloStep_regBase (s : State) (w : Word) : (s.crcloStep w).regBase = s.regBase := rfl
@[simp] theorem State.crcloStep_events (s : State) (w : Word) : (s.crcloStep w).events = s.events := rfl
@[simp] theorem State.crcloStep_reply (s : State) (w : Word) : (s.crcloStep w).reply = s.reply := rfl

/-! ### `State.crchiStep` -/

@[simp] theorem State.crchiStep_acc (s : State) (w : Word) : (s.crchiStep w).acc = s.acc := rfl
@[simp] theorem State.crchiStep_lanes (s : State) (w : Word) : (s.crchiStep w).lanes = s.lanes.feed w := rfl
@[simp] theorem State.crchiStep_count (s : State) (w : Word) : (s.crchiStep w).count = s.count + 4 := rfl
@[simp] theorem State.crchiStep_data (s : State) (w : Word) : (s.crchiStep w).data = s.data := rfl
@[simp] theorem State.crchiStep_base (s : State) (w : Word) : (s.crchiStep w).base = s.base := rfl
@[simp] theorem State.crchiStep_len (s : State) (w : Word) : (s.crchiStep w).len = s.len := rfl
@[simp] theorem State.crchiStep_pck (s : State) (w : Word) : (s.crchiStep w).pck = s.pck := rfl
@[simp] theorem State.crchiStep_plo (s : State) (w : Word) : (s.crchiStep w).plo = s.plo := rfl
@[simp] theorem State.crchiStep_phi (s : State) (w : Word) : (s.crchiStep w).phi = s.phi := rfl
@[simp] theorem State.crchiStep_readck (s : State) (w : Word) : (s.crchiStep w).readck = s.readck := rfl
@[simp] theorem State.crchiStep_faddr (s : State) (w : Word) : (s.crchiStep w).faddr = s.faddr := rfl
@[simp] theorem State.crchiStep_status (s : State) (w : Word) : (s.crchiStep w).status = { s.status with
      busy := false, done := true, ckOk := s.checksumVerdict, crcOk := (s.lanes.feed w).allZero } := rfl
@[simp] theorem State.crchiStep_phase (s : State) (w : Word) : (s.crchiStep w).phase = .idle := rfl
@[simp] theorem State.crchiStep_idx (s : State) (w : Word) : (s.crchiStep w).idx = s.idx := rfl
@[simp] theorem State.crchiStep_mem (s : State) (w : Word) : (s.crchiStep w).mem = s.mem := rfl
@[simp] theorem State.crchiStep_memErr (s : State) (w : Word) : (s.crchiStep w).memErr = s.memErr := rfl
@[simp] theorem State.crchiStep_readEffects (s : State) (w : Word) : (s.crchiStep w).readEffects = s.readEffects := rfl
@[simp] theorem State.crchiStep_regBase (s : State) (w : Word) : (s.crchiStep w).regBase = s.regBase := rfl
@[simp] theorem State.crchiStep_events (s : State) (w : Word) : (s.crchiStep w).events = s.events := rfl
@[simp] theorem State.crchiStep_reply (s : State) (w : Word) : (s.crchiStep w).reply = s.reply := rfl

/-! ### `State.regRead` -/

@[simp] theorem State.regRead_acc (s : State) (r : Reg) : (s.regRead r).acc = s.acc := rfl
@[simp] theorem State.regRead_lanes (s : State) (r : Reg) : (s.regRead r).lanes = s.lanes := rfl
@[simp] theorem State.regRead_count (s : State) (r : Reg) : (s.regRead r).count = s.count := rfl
@[simp] theorem State.regRead_data (s : State) (r : Reg) : (s.regRead r).data = s.data := rfl
@[simp] theorem State.regRead_base (s : State) (r : Reg) : (s.regRead r).base = s.base := rfl
@[simp] theorem State.regRead_len (s : State) (r : Reg) : (s.regRead r).len = s.len := rfl
@[simp] theorem State.regRead_pck (s : State) (r : Reg) : (s.regRead r).pck = s.pck := rfl
@[simp] theorem State.regRead_plo (s : State) (r : Reg) : (s.regRead r).plo = s.plo := rfl
@[simp] theorem State.regRead_phi (s : State) (r : Reg) : (s.regRead r).phi = s.phi := rfl
@[simp] theorem State.regRead_readck (s : State) (r : Reg) : (s.regRead r).readck = s.readck := rfl
@[simp] theorem State.regRead_faddr (s : State) (r : Reg) : (s.regRead r).faddr = s.faddr := rfl
@[simp] theorem State.regRead_status (s : State) (r : Reg) : (s.regRead r).status = s.status := rfl
@[simp] theorem State.regRead_phase (s : State) (r : Reg) : (s.regRead r).phase = s.phase := rfl
@[simp] theorem State.regRead_idx (s : State) (r : Reg) : (s.regRead r).idx = s.idx := rfl
@[simp] theorem State.regRead_mem (s : State) (r : Reg) : (s.regRead r).mem = s.mem := rfl
@[simp] theorem State.regRead_memErr (s : State) (r : Reg) : (s.regRead r).memErr = s.memErr := rfl
@[simp] theorem State.regRead_readEffects (s : State) (r : Reg) : (s.regRead r).readEffects = s.readEffects := rfl
@[simp] theorem State.regRead_regBase (s : State) (r : Reg) : (s.regRead r).regBase = s.regBase := rfl
@[simp] theorem State.regRead_events (s : State) (r : Reg) : (s.regRead r).events = s.events := rfl
@[simp] theorem State.regRead_reply (s : State) (r : Reg) : (s.regRead r).reply = .reg (s.regValue r) := rfl

end Sys2Proof.Machine
end

