-- ==== Sys2Proof/Laws/Memory.lean ====
section
/-! SUPPORT. Image memory: a byte reads as it was last written, the others are left alone, and every
operation keeps the canonical form, in which equal memories are equal lists. -/

namespace Sys2Proof.Machine

@[simp] theorem Memory.read_nil (a : Nat) : Memory.read [] a = Config.unlistedByte := rfl

theorem Memory.wfFrom_mono {lo lo' : Nat} {m : Memory} (h : Memory.wfFrom lo' m = true) (hl : lo ≤ lo') :
    Memory.wfFrom lo m = true := by
  cases m with
  | nil => rfl
  | cons c rest =>
    obtain ⟨k, b⟩ := c
    simp only [Memory.wfFrom, Bool.and_eq_true, decide_eq_true_eq] at h ⊢
    obtain ⟨⟨⟨h1, h2⟩, h3⟩, h4⟩ := h
    exact ⟨⟨⟨by omega, h2⟩, h3⟩, h4⟩

theorem Memory.read_below {lo a : Nat} {m : Memory} (h : Memory.wfFrom lo m = true) (ha : a < lo) :
    m.read a = Config.unlistedByte := by
  induction m generalizing lo with
  | nil => rfl
  | cons c rest ih =>
    obtain ⟨k, b⟩ := c
    simp only [Memory.wfFrom, Bool.and_eq_true, decide_eq_true_eq] at h
    obtain ⟨⟨⟨h1, -⟩, -⟩, h4⟩ := h
    rw [Memory.read, if_neg (by omega)]
    exact ih h4 (by omega)

/-- In a canonical memory a byte reads as it was last written, and every other byte as before. -/
theorem Memory.read_write {lo a : Nat} {m : Memory} (h : Memory.wfFrom lo m = true) (b : Byte) (x : Nat) :
    (m.write a b).read x = if x = a then b else m.read x := by
  induction m generalizing lo with
  | nil =>
    by_cases hb : b = Config.unlistedByte
    · simp [Memory.write, hb]
    · by_cases hx : x = a
      · simp [Memory.write, hb, Memory.read, hx]
      · simp [Memory.write, hb, Memory.read, hx, Ne.symm hx]
  | cons c rest ih =>
    obtain ⟨k, c⟩ := c
    simp only [Memory.wfFrom, Bool.and_eq_true, decide_eq_true_eq] at h
    obtain ⟨⟨⟨-, -⟩, -⟩, h4⟩ := h
    have below : ∀ y, y ≤ k → Memory.read rest y = Config.unlistedByte :=
      fun y hy => Memory.read_below h4 (by omega)
    simp only [Memory.write]
    split
    · have hr := below a (by omega)
      split
      · by_cases hx : x = a
        · subst hx; simp [Memory.read, *]; omega
        · simp [hx]
      · by_cases hx : x = a
        · simp [Memory.read, hx]
        · simp [Memory.read, hx, Ne.symm hx]
    · split
      · subst_vars
        have hr := below k (Nat.le_refl k)
        split
        · by_cases hx : x = k
          · subst hx; simp [*]
          · simp [Memory.read, hx, Ne.symm hx]
        · by_cases hx : x = k
          · simp [Memory.read, hx]
          · simp [Memory.read, hx, Ne.symm hx]
      · by_cases hk : k = x
        · subst hk; simp [Memory.read, Ne.symm ‹¬a = k›]
        · simp only [Memory.read, if_neg hk]; exact ih h4

/-- A write keeps the canonical form. -/
theorem Memory.wfFrom_write {lo a : Nat} {m : Memory} (h : Memory.wfFrom lo m = true) (ha : lo ≤ a)
    (hs : a < Config.imageSpaceBytes) (b : Byte) : Memory.wfFrom lo (m.write a b) = true := by
  induction m generalizing lo with
  | nil =>
    simp only [Memory.write]
    split
    · rfl
    · simp [Memory.wfFrom, *]
  | cons c rest ih =>
    obtain ⟨k, c⟩ := c
    have h' := h
    simp only [Memory.wfFrom, Bool.and_eq_true, decide_eq_true_eq] at h
    obtain ⟨⟨⟨h1, h2⟩, h3⟩, h4⟩ := h
    simp only [Memory.write]
    split
    · split
      · exact h'
      · simp only [Memory.wfFrom, Bool.and_eq_true, decide_eq_true_eq, bne_iff_ne, ne_eq]
        exact ⟨⟨⟨ha, hs⟩, ‹_›⟩, ⟨⟨⟨by omega, h2⟩, by simpa using h3⟩, h4⟩⟩
    · split
      · split
        · exact Memory.wfFrom_mono h4 (by omega)
        · simp only [Memory.wfFrom, Bool.and_eq_true, decide_eq_true_eq, bne_iff_ne, ne_eq]
          exact ⟨⟨⟨ha, hs⟩, ‹_›⟩, Memory.wfFrom_mono h4 (by omega)⟩
      · simp only [Memory.wfFrom, Bool.and_eq_true, decide_eq_true_eq]
        exact ⟨⟨⟨h1, h2⟩, h3⟩, ih h4 (by omega)⟩

theorem Memory.wf_write {m : Memory} (h : m.wf = true) (a : Word) (b : Byte) : (m.write a.toNat b).wf = true :=
  Memory.wfFrom_write h (Nat.zero_le _) a.isLt b

theorem Memory.byteAt_write {m : Memory} (h : m.wf = true) (a : Word) (b : Byte) (x : Word) :
    Memory.byteAt (m.write a.toNat b) x = if x = a then b else m.byteAt x := by
  simp [Memory.read_write h, BitVec.toNat_inj]

theorem Memory.wf_writeWord {m : Memory} (h : m.wf = true) (a v : Word) : (m.writeWord a v).wf = true :=
  Memory.wf_write (Memory.wf_write (Memory.wf_write (Memory.wf_write h _ _) _ _) _ _) _ _

theorem Memory.wf_writeCells {m : Memory} (h : m.wf = true) (cells : List (Word × Byte)) :
    (m.writeCells cells).wf = true := by
  induction cells generalizing m with
  | nil => exact h
  | cons c rest ih => exact ih (Memory.wf_write h _ _)

theorem lastListed_nil (x : Word) : lastListed [] x = none := rfl

theorem lastListed_cons (c : Word × Byte) (cells : List (Word × Byte)) (x : Word) :
    lastListed (c :: cells) x = (lastListed cells x).or (if c.1 = x then some c.2 else none) := by
  unfold lastListed
  rw [List.reverse_cons, List.find?_append]
  cases h : cells.reverse.find? fun c => decide (c.1 = x) <;> by_cases hc : c.1 = x <;> simp [hc]

theorem lastListed_eq_none {cells : List (Word × Byte)} {x : Word} (hx : ∀ c ∈ cells, c.1 ≠ x) :
    lastListed cells x = none := by
  simp only [lastListed, Option.map_eq_none_iff, List.find?_eq_none, List.mem_reverse]
  exact fun c hc => by simpa using hx c hc

/-- In a canonical memory a listed byte reads as the list names it last, and every other byte as before. -/
theorem Memory.byteAt_writeCells {m : Memory} (h : m.wf = true) (cells : List (Word × Byte)) (x : Word) :
    Memory.byteAt (m.writeCells cells) x = (lastListed cells x).getD (m.byteAt x) := by
  induction cells generalizing m with
  | nil => rfl
  | cons c rest ih =>
    rw [Memory.writeCells, ih (Memory.wf_write h _ _), lastListed_cons, Memory.byteAt_write h]
    cases lastListed rest x <;> by_cases hc : x = c.1 <;> simp [hc, Ne.symm]

theorem Memory.byteAt_writeCells_other {m : Memory} (h : m.wf = true) (cells : List (Word × Byte)) (x : Word)
    (hx : ∀ c ∈ cells, c.1 ≠ x) : Memory.byteAt (m.writeCells cells) x = m.byteAt x := by
  rw [Memory.byteAt_writeCells h, lastListed_eq_none hx, Option.getD_none]

/-- The bytes of an outside read, each at its address. -/
theorem Memory.readBytes_spec (m : Memory) (n : Nat) (a : Word) :
    (m.readBytes a n).length = n ∧ ∀ i, i < n → (m.readBytes a n)[i]? = some (m.byteAt (a + BitVec.ofNat 32 i)) := by
  induction n generalizing a with
  | zero => exact ⟨rfl, fun i hi => absurd hi (Nat.not_lt_zero i)⟩
  | succ n ih =>
    refine ⟨congrArg (· + 1) (ih (a + 1)).1, fun i hi => ?_⟩
    cases i with
    | zero => simp [Memory.readBytes]
    | succ i =>
      rw [Memory.readBytes, List.getElem?_cons_succ, (ih (a + 1)).2 i (by omega)]
      congr 2
      rw [BitVec.add_assoc]
      congr 1
      apply BitVec.eq_of_toNat_eq
      simp [Nat.add_comm]

/-- A read meets an effect when one of the bytes it reads lies in the effect's region. -/
theorem readMeets_iff (e : ReadEffect) (a : Word) (n : Nat) :
    readMeets e a n = true ↔ ∃ i, i < n ∧ e.lo ≤ a + BitVec.ofNat 32 i ∧ a + BitVec.ofNat 32 i ≤ e.hi := by
  simp [readMeets]

/-- Image memory after a read, byte by byte. -/
theorem State.byteAt_memAfterRead {s : State} (h : s.mem.wf = true) (a : Word) (n : Nat) (x : Word) :
    (s.memAfterRead a n).byteAt x = (lastListed (s.readCells a n) x).getD (s.mem.byteAt x) :=
  Memory.byteAt_writeCells h _ x

/-- A read that meets no effect leaves image memory as it was. -/
theorem State.memAfterRead_none {s : State} (h : s.readEffects = []) (a : Word) (n : Nat) :
    s.memAfterRead a n = s.mem := by
  simp [State.memAfterRead, State.readCells, h, Memory.writeCells]

/-- Equal memories are equal data. -/
theorem Memory.ext_of_wfFrom {lo : Nat} {m n : Memory} (hm : Memory.wfFrom lo m = true)
    (hn : Memory.wfFrom lo n = true) (h : ∀ a, m.read a = n.read a) : m = n := by
  induction m generalizing lo n with
  | nil =>
    cases n with
    | nil => rfl
    | cons c rest =>
      obtain ⟨k, b⟩ := c
      simp only [Memory.wfFrom, Bool.and_eq_true, bne_iff_ne] at hn
      have := h k
      simp [Memory.read] at this
      exact absurd this.symm hn.1.2
  | cons c rest ih =>
    obtain ⟨k, b⟩ := c
    cases n with
    | nil =>
      simp only [Memory.wfFrom, Bool.and_eq_true, bne_iff_ne] at hm
      have := h k
      simp [Memory.read] at this
      exact absurd this hm.1.2
    | cons d rest' =>
      obtain ⟨k', b'⟩ := d
      simp only [Memory.wfFrom, Bool.and_eq_true, decide_eq_true_eq, bne_iff_ne] at hm hn
      have hk : k = k' := by
        rcases Nat.lt_trichotomy k k' with hlt | heq | hgt
        · have := h k
          rw [Memory.read, if_pos rfl, Memory.read, if_neg (by omega), Memory.read_below hn.2 (by omega)] at this
          exact absurd this hm.1.2
        · exact heq
        · have := h k'
          rw [Memory.read, if_neg (by omega), Memory.read, if_pos rfl, Memory.read_below hm.2 (by omega)] at this
          exact absurd this.symm hn.1.2
      subst hk
      have hb : b = b' := by simpa [Memory.read] using h k
      subst hb
      rw [ih hm.2 hn.2 fun a => ?_]
      by_cases ha : k = a
      · subst ha; rw [Memory.read_below hm.2 (by omega), Memory.read_below hn.2 (by omega)]
      · simpa [Memory.read, ha] using h a

theorem Memory.ext_of_wf {m n : Memory} (hm : m.wf = true) (hn : n.wf = true)
    (h : ∀ a, m.read a = n.read a) : m = n :=
  Memory.ext_of_wfFrom hm hn h

end Sys2Proof.Machine
end

