-- ==== Sys2Proof/Laws/Ops.lean ====
section
/-! SUPPORT. What each shared operation can do, said once: the acceptance of a command, the engine's turn,
a register write, one event, one step. Later proofs take a step apart with `step_cases`. -/

namespace Sys2Proof.Machine

theorem acceptCommand_busy {s : State} {f : State → State} (h : s.status.busy = true) :
    acceptCommand s f = .next s.dropWrite := by simp [acceptCommand, h]

theorem acceptCommand_idle {s : State} {f : State → State} (h : s.status.busy = false) :
    acceptCommand s f = .next (f (s.raiseError .none)) := by simp [acceptCommand, h]

/-- A command is dropped or runs; it never stops the machine. -/
theorem acceptCommand_cases {s t : State} {f : State → State} (h : acceptCommand s f = .next t) :
    (s.status.busy = true ∧ t = s.dropWrite) ∨ (s.status.busy = false ∧ t = f (s.raiseError .none)) := by
  cases hb : s.status.busy
  · rw [acceptCommand_idle hb] at h; cases h; exact .inr ⟨rfl, rfl⟩
  · rw [acceptCommand_busy hb] at h; cases h; exact .inl ⟨rfl, rfl⟩

/-- What a command does when it is decoded: `exec` is `acceptCommand` of this. -/
def operationOf : Instr → State → State
  | .nop => fun t => t
  | .clear => State.clearAll
  | .feed => fun t => t.feedWord t.data
  | .feedcrc => fun t => t.feedLanes t.data
  | .latch => State.latchWords
  | .verify => fun t => t.requestSequence .verify Config.minLenVerify
  | .patch => fun t => t.requestSequence .patch Config.minLenPatch

theorem exec_eq (i : Instr) (s : State) : exec i s = acceptCommand s (operationOf i) := by cases i <;> rfl

/-- VERIFY and PATCH are rejected for their length, for their range, or start. -/
theorem State.requestSequence_cases (s : State) (k : SeqKind) (minimum : Word) :
    (badLength s.len minimum = true ∧ s.requestSequence k minimum = s.raiseError .badLength)
      ∨ (badLength s.len minimum = false ∧ badRange s.base s.len = true
          ∧ s.requestSequence k minimum = s.raiseError .badRange)
      ∨ (badLength s.len minimum = false ∧ badRange s.base s.len = false
          ∧ s.requestSequence k minimum = s.startSequence k) := by
  unfold State.requestSequence
  cases badLength s.len minimum <;> cases badRange s.base s.len <;> simp

/-- The length check in numbers (60_exceptions.md R242). -/
theorem badLength_eq_false {len minimum : Word} :
    badLength len minimum = false ↔ len.toNat % 4 = 0 ∧ minimum.toNat ≤ len.toNat := by
  have h : len.extractLsb' 0 2 = 0#2 ↔ len.toNat % 4 = 0 := by
    rw [← BitVec.toNat_inj]; simp
  simp [badLength, BitVec.lt_def, h]

/-- The range check in numbers (60_exceptions.md R243). -/
theorem badRange_eq_false {base len : Word} :
    badRange base len = false ↔ base.toNat + len.toNat ≤ 2 ^ 32 := by
  simp [badRange, Config.imageSpaceBytes]

/-- The engine's turn: nothing or the latch without an access, an abort, a read, or a write. -/
theorem State.engineStep_cases (s : State) :
    (s.portAccess = none ∧ s.engineStep = s.quietStep)
      ∨ (∃ x, s.portAccess = some x ∧ s.memErrAt x.addr x.dir = true ∧ s.engineStep = s.memFault x.addr)
      ∨ (∃ a, s.portAccess = some (.read a) ∧ s.memErrAt a .read = false
          ∧ s.engineStep = { s with mem := s.memAfterRead a 4 }.afterRead (s.mem.readWord a))
      ∨ (∃ a v, s.portAccess = some (.write a v) ∧ s.memErrAt a .write = false
          ∧ s.engineStep = { s with mem := s.mem.writeWord a v }.afterWrite) := by
  unfold State.engineStep
  cases hp : s.portAccess with
  | none => exact .inl ⟨rfl, rfl⟩
  | some x =>
    refine .inr ?_
    cases x with
    | read a =>
      cases he : s.memErrAt a .read
      · exact .inr (.inl ⟨a, rfl, he, by simp [he]⟩)
      · exact .inl ⟨.read a, rfl, he, by simp [he, Access.addr]⟩
    | write a v =>
      cases he : s.memErrAt a .write
      · exact .inr (.inr ⟨a, v, rfl, he, by simp [he]⟩)
      · exact .inl ⟨.write a v, rfl, he, by simp [he, Access.addr]⟩

/-- The engine's turn leaves the operand registers, the platform's parameters and the model's own fields
alone, and `afterRead`, `afterWrite`, `quietStep` do too. -/
theorem State.quietStep_frame (s : State) :
    s.quietStep.data = s.data ∧ s.quietStep.base = s.base ∧ s.quietStep.len = s.len
      ∧ s.quietStep.memErr = s.memErr ∧ s.quietStep.regBase = s.regBase ∧ s.quietStep.events = s.events
      ∧ s.quietStep.reply = s.reply ∧ s.quietStep.mem = s.mem := by
  cases h : s.phase <;> simp [State.quietStep, h]

theorem State.afterRead_frame (s : State) (w : Word) :
    (s.afterRead w).data = s.data ∧ (s.afterRead w).base = s.base ∧ (s.afterRead w).len = s.len
      ∧ (s.afterRead w).memErr = s.memErr ∧ (s.afterRead w).regBase = s.regBase
      ∧ (s.afterRead w).events = s.events ∧ (s.afterRead w).reply = s.reply ∧ (s.afterRead w).mem = s.mem := by
  cases h : s.phase <;> simp [State.afterRead, h]

theorem State.afterWrite_frame (s : State) :
    s.afterWrite.data = s.data ∧ s.afterWrite.base = s.base ∧ s.afterWrite.len = s.len
      ∧ s.afterWrite.memErr = s.memErr ∧ s.afterWrite.regBase = s.regBase ∧ s.afterWrite.events = s.events
      ∧ s.afterWrite.reply = s.reply ∧ s.afterWrite.mem = s.mem := by
  cases h : s.phase <;>
    simp [State.afterWrite, h, State.lenwStep, State.wckStep, State.wloStep, State.whiStep]

theorem State.engineStep_frame (s : State) :
    s.engineStep.data = s.data ∧ s.engineStep.base = s.base ∧ s.engineStep.len = s.len
      ∧ s.engineStep.memErr = s.memErr ∧ s.engineStep.regBase = s.regBase ∧ s.engineStep.events = s.events
      ∧ s.engineStep.reply = s.reply := by
  rcases s.engineStep_cases with ⟨-, h⟩ | ⟨x, -, -, h⟩ | ⟨a, -, -, h⟩ | ⟨a, v, -, -, h⟩ <;> rw [h]
  · obtain ⟨h1, h2, h3, h4, h5, h6, h7, -⟩ := s.quietStep_frame
    exact ⟨h1, h2, h3, h4, h5, h6, h7⟩
  · simp
  · obtain ⟨h1, h2, h3, h4, h5, h6, h7, -⟩ :=
      { s with mem := s.memAfterRead a 4 }.afterRead_frame (s.mem.readWord a)
    exact ⟨h1, h2, h3, h4, h5, h6, h7⟩
  · obtain ⟨h1, h2, h3, h4, h5, h6, h7, -⟩ := { s with mem := s.mem.writeWord a v }.afterWrite_frame
    exact ⟨h1, h2, h3, h4, h5, h6, h7⟩

theorem State.engineStep_readEffects (s : State) : s.engineStep.readEffects = s.readEffects := by
  rcases s.engineStep_cases with ⟨-, h⟩ | ⟨x, -, -, h⟩ | ⟨a, -, -, h⟩ | ⟨a, v, -, -, h⟩ <;> rw [h]
  · cases h : s.phase <;> simp [State.quietStep, h]
  · simp
  · cases s.phase <;> simp [State.afterRead]
  · cases s.phase <;> simp [State.afterWrite, State.lenwStep, State.wckStep, State.wloStep, State.whiStep]

/-- The engine's turn keeps the canonical form of memory. -/
theorem State.engineStep_wf {s : State} (h : s.mem.wf = true) : s.engineStep.mem.wf = true := by
  rcases s.engineStep_cases with ⟨-, e⟩ | ⟨x, -, -, e⟩ | ⟨a, -, -, e⟩ | ⟨a, v, -, -, e⟩ <;> rw [e]
  · rw [s.quietStep_frame.2.2.2.2.2.2.2]; exact h
  · exact h
  · rw [(State.afterRead_frame _ _).2.2.2.2.2.2.2]; exact Memory.wf_writeCells h _
  · rw [(State.afterWrite_frame _).2.2.2.2.2.2.2]; exact Memory.wf_writeWord h a v

/-- A write of an operand register is dropped or stored. -/
theorem writeOperand_cases {s t u : State} (h : writeOperand s u = .next t) :
    (s.status.busy = true ∧ t = s.dropWrite) ∨ (s.status.busy = false ∧ t = u) := by
  unfold writeOperand at h
  cases hb : s.status.busy <;> simp [hb] at h
  · exact .inr ⟨rfl, h.symm⟩
  · exact .inl ⟨rfl, h.symm⟩

/-- A register write goes to the command decoder, to an operand register, or has no effect. -/
theorem regWrite_cases {r : Reg} {v : Word} {s t : State} (h : regWrite r v s = .next t) :
    (s.status.busy = true ∧ t = s.dropWrite ∧ (r = .cmd ∨ r = .data ∨ r = .base ∨ r = .len))
      ∨ (s.status.busy = false
          ∧ ((∃ i, r = .cmd ∧ decode v = .ok i ∧ t = operationOf i (s.raiseError .none))
            ∨ (∃ e, r = .cmd ∧ decode v = .error e ∧ t = s.raiseError .illegalCmd)
            ∨ (r = .data ∧ t = { s with data := v })
            ∨ (r = .base ∧ t = { s with base := baseStored v })
            ∨ (r = .len ∧ t = { s with len := v })))
      ∨ (r ≠ .cmd ∧ r ≠ .data ∧ r ≠ .base ∧ r ≠ .len ∧ t = s) := by
  cases r
  case cmd =>
    simp only [regWrite, commandWrite] at h
    cases hd : decode v with
    | ok i =>
      rw [hd] at h
      simp only [exec_eq] at h
      rcases acceptCommand_cases h with ⟨hb, ht⟩ | ⟨hb, ht⟩
      · exact .inl ⟨hb, ht, .inl rfl⟩
      · exact .inr (.inl ⟨hb, .inl ⟨i, rfl, rfl, ht⟩⟩)
    | error e =>
      rw [hd] at h
      rcases acceptCommand_cases h with ⟨hb, ht⟩ | ⟨hb, ht⟩
      · exact .inl ⟨hb, ht, .inl rfl⟩
      · exact .inr (.inl ⟨hb, .inr (.inl ⟨e, rfl, rfl, ht⟩)⟩)
  case data =>
    rcases writeOperand_cases h with ⟨hb, ht⟩ | ⟨hb, ht⟩
    · exact .inl ⟨hb, ht, by simp⟩
    · exact .inr (.inl ⟨hb, by simp [ht]⟩)
  case base =>
    rcases writeOperand_cases h with ⟨hb, ht⟩ | ⟨hb, ht⟩
    · exact .inl ⟨hb, ht, by simp⟩
    · exact .inr (.inl ⟨hb, by simp [ht]⟩)
  case len =>
    rcases writeOperand_cases h with ⟨hb, ht⟩ | ⟨hb, ht⟩
    · exact .inl ⟨hb, ht, by simp⟩
    · exact .inr (.inl ⟨hb, by simp [ht]⟩)
  all_goals
    simp only [regWrite, Host.Outcome.next.injEq] at h
    exact .inr (.inr ⟨by simp, by simp, by simp, by simp, h.symm⟩)

/-- A register access that goes on names a register of the map. -/
theorem withRegister_cases {s t : State} {addr width : Nat} {k : Reg → Host.Outcome State Fault Refusal}
    (h : withRegister s addr width k = .next t) :
    s.regBase ≤ addr ∧ width = 32 ∧ ∃ r, regAt (addr - s.regBase) = some r ∧ k r = .next t := by
  unfold withRegister at h
  split at h
  · cases h
  · split at h
    · cases h
    · split at h
      · exact ⟨by omega, by simp_all, _, ‹_›, h⟩
      · cases h

theorem regAt_lt {off : Nat} {r : Reg} (h : regAt off = some r) : off < Config.regWindowBytes := by
  unfold regAt at h
  split at h <;> first | decide | cases h

theorem withRegister_at {s : State} {off : Nat} {r : Reg} {k : Reg → Host.Outcome State Fault Refusal}
    (h : regAt off = some r) : withRegister s (s.regBase + off) 32 k = k r := by
  have := regAt_lt h
  rw [withRegister, if_neg (by omega), if_neg (by simp), Nat.add_sub_cancel_left, h]

/-- The host writes a register of the map. -/
theorem step_regWrite {s : State} {off : Nat} {v : Word} {rest : List Event} {r : Reg}
    (h : s.events = .regWrite (s.regBase + off) 32 v :: rest) (hr : regAt off = some r) :
    step s = regWrite r v { s with events := rest } := by
  rw [step, h]
  exact withRegister_at (s := { s with events := rest }) hr

/-- The host reads a register of the map. -/
theorem step_regRead {s : State} {off : Nat} {rest : List Event} {r : Reg}
    (h : s.events = .regRead (s.regBase + off) 32 :: rest) (hr : regAt off = some r) :
    step s = .next (State.regRead { s with events := rest } r) := by
  rw [step, h]
  exact withRegister_at (s := { s with events := rest }) hr

/-- Everything one step can do. `s0` is the state once the event has left the events to come. -/
theorem step_cases {s t : State} (h : step s = .next t) :
    (s.events = [] ∧ t = s.engineStep)
      ∨ ∃ e rest s0, s.events = e :: rest ∧ s0 = { s with events := rest } ∧
        ((∃ addr width r, e = .regRead addr width ∧ s.regBase ≤ addr ∧ width = 32 ∧ regAt (addr - s.regBase) = some r
            ∧ t = s0.regRead r)
          ∨ (∃ addr width v r, e = .regWrite addr width v ∧ s.regBase ≤ addr ∧ width = 32
              ∧ regAt (addr - s.regBase) = some r ∧ regWrite r v s0 = .next t)
          ∨ (∃ addr n, e = .memRead addr n
            ∧ t = { s0 with mem := s0.memAfterRead addr n, reply := .mem (s0.mem.readBytes addr n) })
          ∨ (∃ cells, e = .memWrite cells ∧ t = { s0 with mem := s0.mem.writeCells cells })
          ∨ (e = .wait ∧ t = s0.waitTurn)
          ∨ (e = .engine ∧ t = s0.engineStep)
          ∨ (e = .reset ∧ t = s0.applyReset)
          ∨ (∃ regions, e = .setMemErr regions ∧ t = { s0 with memErr := regions })
          ∨ (∃ effects, e = .setReadEffects effects ∧ t = { s0 with readEffects := effects })) := by
  unfold step at h
  cases he : s.events with
  | nil => rw [he] at h; cases h; exact .inl ⟨rfl, rfl⟩
  | cons e rest =>
    rw [he] at h
    refine .inr ⟨e, rest, _, rfl, rfl, ?_⟩
    cases e <;> simp only [perform] at h
    case regRead addr width =>
      obtain ⟨hb, hw, r, hr, hk⟩ := withRegister_cases h
      cases hk
      exact .inl ⟨addr, width, r, rfl, hb, hw, hr, rfl⟩
    case regWrite addr width v =>
      obtain ⟨hb, hw, r, hr, hk⟩ := withRegister_cases h
      exact .inr (.inl ⟨addr, width, v, r, rfl, hb, hw, hr, hk⟩)
    all_goals cases h; simp

end Sys2Proof.Machine
end

