-- ==== Sys2Proof/Laws/PerInstr.lean ====
section
/-! SUPPORT. The families of statements made for every instruction, one lemma per constructor. -/

namespace Sys2Proof.Laws

/-- A command is well formed, its word is its code with every reserved bit 0, and that word decodes to it
(30_encoding.md R100, R102). -/
def Encoding.Statement (i : Instr) : Prop :=
  i.wf = true ∧ rsvField (encode i) = 0 ∧ opField (encode i) = opcode i ∧ commandWordWf (encode i) = true
    ∧ decode (encode i) = .ok i

theorem Encoding.nop : Encoding.Statement .nop := ⟨rfl, rfl, rfl, rfl, rfl⟩
theorem Encoding.clear : Encoding.Statement .clear := ⟨rfl, rfl, rfl, rfl, rfl⟩
theorem Encoding.feed : Encoding.Statement .feed := ⟨rfl, rfl, rfl, rfl, rfl⟩
theorem Encoding.feedcrc : Encoding.Statement .feedcrc := ⟨rfl, rfl, rfl, rfl, rfl⟩
theorem Encoding.latch : Encoding.Statement .latch := ⟨rfl, rfl, rfl, rfl, rfl⟩
theorem Encoding.verify : Encoding.Statement .verify := ⟨rfl, rfl, rfl, rfl, rfl⟩
theorem Encoding.patch : Encoding.Statement .patch := ⟨rfl, rfl, rfl, rfl, rfl⟩

end Sys2Proof.Laws
end

