-- ==== Sys2Proof/Laws/Run.lean ====
section
/-! SUPPORT. Runs of several steps, and the step in which the host issues a command. -/

namespace Sys2Proof.Machine

@[simp] theorem run_zero (s : State) : Host.Core.run Sys2Proof.core 0 s = .next s := rfl

theorem run_succ {s t : State} (n : Nat) (h : step s = .next t) :
    Host.Core.run Sys2Proof.core (n + 1) s = Host.Core.run Sys2Proof.core n t := by
  have h' : Sys2Proof.core.step s = .next t := h
  simp only [Host.Core.run, h']

theorem run_add {s t : State} {m : Nat} (n : Nat) (h : Host.Core.run Sys2Proof.core m s = .next t) :
    Host.Core.run Sys2Proof.core (m + n) s = Host.Core.run Sys2Proof.core n t := by
  induction m generalizing s with
  | zero => cases h; simp
  | succ m ih =>
    cases hs : step s with
    | next u =>
      rw [run_succ m hs] at h
      rw [Nat.add_right_comm, run_succ _ hs, ih h]
    | fault r => exact r.casesOn
    | refused r =>
      have hs' : Sys2Proof.core.step s = .refused r := hs
      simp [Host.Core.run, hs'] at h

/-- With no event to come, a step is the engine's turn. -/
theorem step_noEvents {s : State} (h : s.events = []) : step s = .next s.engineStep := by simp [step, h]

/-- The host issues a command while BUSY = 0: ERR becomes NONE, then the command's operation. -/
theorem step_command {s : State} {i : Instr} {rest : List Event} (hb : s.status.busy = false)
    (h : s.events = .regWrite (s.regBase + 0) 32 (encode i) :: rest) :
    step s = .next (operationOf i (State.raiseError { s with events := rest } .none)) := by
  rw [step_regWrite h (r := .cmd) rfl, regWrite, commandWrite,
    show decode (encode i) = .ok i by cases i <;> rfl]
  simp only [exec_eq]
  exact acceptCommand_idle hb

/-- The host writes DATA while BUSY = 0. -/
theorem step_writeData {s : State} {v : Word} {rest : List Event} (hb : s.status.busy = false)
    (h : s.events = .regWrite (s.regBase + 4) 32 v :: rest) :
    step s = .next { s with events := rest, data := v } := by
  rw [step_regWrite h (r := .data) rfl]
  simp [regWrite, writeOperand, hb]

theorem regAt_eq {off : Nat} {r : Reg} (h : regAt off = some r) : off = regOffset r := by
  unfold regAt at h
  split at h <;> cases h <;> rfl

theorem step_of_issues {s : State} {i : Instr} (h : s.issues i) :
    ∃ rest, step s = .next (operationOf i (State.raiseError { s with events := rest } .none)) := by
  obtain ⟨hb, c, ⟨rest, he⟩, hd⟩ := h
  refine ⟨rest, ?_⟩
  rw [step_regWrite he (r := .cmd) rfl, regWrite, commandWrite, hd]
  simp only [exec_eq]
  exact acceptCommand_idle hb

theorem step_of_resets {s : State} (h : s.resets) :
    ∃ rest, step s = .next (State.applyReset { s with events := rest }) := by
  obtain ⟨rest, he⟩ := h
  exact ⟨rest, by simp [step, he, perform]⟩

theorem step_of_engineTurn {s : State} (h : s.engineTurn) :
    ∃ rest, step s = .next (State.engineStep { s with events := rest }) := by
  rcases h with he | ⟨rest, he⟩
  · refine ⟨[], ?_⟩
    have : { s with events := [] } = s := by rw [← he]
    rw [this, step_noEvents he]
  · exact ⟨rest, by simp [step, he, perform]⟩

/-- Every step is one of seven: the engine's turn, a command, an illegal word, a dropped write, a reset, a
write of an operand register, or one that leaves the engine's own state alone. -/
theorem step_classes {s t : State} (h : step s = .next t) :
    (s.engineTurn ∧ ∃ rest, t = State.engineStep { s with events := rest })
      ∨ (∃ i rest, s.issues i ∧ t = operationOf i (State.raiseError { s with events := rest } .none))
      ∨ (s.status.busy = false ∧ (∃ c, s.writesReg 0x00 c ∧ ∃ e, decode c = .error e)
          ∧ ∃ rest, t = State.raiseError { s with events := rest } .illegalCmd)
      ∨ (s.status.busy = true ∧ (∃ off ∈ [0x00, 0x04, 0x08, 0x0C], ∃ v, s.writesReg off v)
          ∧ ∃ rest, t = State.dropWrite { s with events := rest })
      ∨ (s.resets ∧ ∃ rest, t = State.applyReset { s with events := rest })
      ∨ (s.status.busy = false ∧ (∃ off ∈ [0x04, 0x08, 0x0C], ∃ v, s.writesReg off v)
          ∧ ∃ rest d b l, t = { s with events := rest, data := d, base := b, len := l })
      ∨ ((¬ s.engineTurn) ∧ (¬ s.resets) ∧ (∀ i, ¬ s.issues i)
          ∧ (∀ off ∈ [0x00, 0x04, 0x08, 0x0C], ∀ v, ¬ s.writesReg off v)
          ∧ ∃ m e f rest r, t = { s with mem := m, memErr := e, readEffects := f, events := rest, reply := r }) := by
  rcases step_cases h with ⟨he, ht⟩ | ⟨e, rest, s0, he, hs0, hh⟩
  · refine .inl ⟨.inl he, [], ?_⟩
    rw [ht, ← he]
  subst hs0
  have noTurn : e ≠ .engine → ¬ s.engineTurn := by
    rintro hne (h | ⟨r, h⟩) <;> rw [he] at h <;> cases h
    exact hne rfl
  have noReset : e ≠ .reset → ¬ s.resets := by
    rintro hne ⟨r, h⟩; rw [he] at h; cases h; exact hne rfl
  have noIssue : (∀ v, e ≠ .regWrite (s.regBase + 0) 32 v) → ∀ i, ¬ s.issues i := by
    rintro hne i ⟨-, c, ⟨r, h⟩, -⟩; rw [he] at h; cases h; exact hne c rfl
  have noWrite : (∀ a w v, e ≠ .regWrite a w v) → ∀ off ∈ [0x00, 0x04, 0x08, 0x0C], ∀ v, ¬ s.writesReg off v := by
    rintro hne off - v ⟨r, h⟩; rw [he] at h; cases h; exact hne _ _ _ rfl
  rcases hh with ⟨a, w, r, rfl, -, -, -, ht⟩ | ⟨a, w, v, r, rfl, ha, rfl, hr, hw⟩ | ⟨a, n, rfl, ht⟩ | ⟨cells, rfl, ht⟩
    | ⟨rfl, ht⟩ | ⟨rfl, ht⟩ | ⟨rfl, ht⟩ | ⟨g, rfl, ht⟩ | ⟨g, rfl, ht⟩
  · exact .inr (.inr (.inr (.inr (.inr (.inr ⟨noTurn (by simp), noReset (by simp), noIssue (by simp), noWrite (by simp),
      s.mem, s.memErr, s.readEffects, rest, _, ht⟩)))))
  · have hoff := regAt_eq hr
    have hwr : s.writesReg (regOffset r) v := ⟨rest, by rw [he, ← hoff, Nat.add_sub_cancel' ha]⟩
    rcases regWrite_cases hw with ⟨hb, ht, hc⟩ | ⟨hb, hc⟩ | ⟨hc, hc1, hc2, hc3, ht⟩
    · refine .inr (.inr (.inr (.inl ⟨hb, ⟨regOffset r, ?_, v, hwr⟩, rest, ht⟩)))
      rcases hc with rfl | rfl | rfl | rfl <;> simp [regOffset]
    · rcases hc with ⟨i, rfl, hd, ht⟩ | ⟨x, rfl, hd, ht⟩ | ⟨rfl, ht⟩ | ⟨rfl, ht⟩ | ⟨rfl, ht⟩
      · exact .inr (.inl ⟨i, rest, ⟨hb, v, hwr, hd⟩, ht⟩)
      · exact .inr (.inr (.inl ⟨hb, ⟨v, hwr, x, hd⟩, rest, ht⟩))
      · exact .inr (.inr (.inr (.inr (.inr (.inl ⟨hb, ⟨_, by simp [regOffset], v, hwr⟩, rest, v, s.base, s.len, ht⟩)))))
      · exact .inr (.inr (.inr (.inr (.inr (.inl ⟨hb, ⟨_, by simp [regOffset], v, hwr⟩, rest, s.data, _, s.len, ht⟩)))))
      · exact .inr (.inr (.inr (.inr (.inr (.inl ⟨hb, ⟨_, by simp [regOffset], v, hwr⟩, rest, s.data, s.base, v, ht⟩)))))
    · refine .inr (.inr (.inr (.inr (.inr (.inr ⟨noTurn (by simp), noReset (by simp), noIssue ?_, ?_,
        s.mem, s.memErr, s.readEffects, rest, s.reply, ht⟩)))))
      · intro x hx
        have h0 : a = s.regBase + 0 := by injection hx
        rw [h0, Nat.add_sub_cancel_left] at hr
        exact hc (by cases hr; rfl)
      · rintro off ho x ⟨r', h⟩
        rw [he] at h
        have h0 : a = s.regBase + off := by cases h; rfl
        subst h0
        rw [Nat.add_sub_cancel_left] at hr hoff
        subst hoff
        revert ho
        cases r <;> simp [regOffset] at hc hc1 hc2 hc3 ⊢
  · exact .inr (.inr (.inr (.inr (.inr (.inr ⟨noTurn (by simp), noReset (by simp), noIssue (by simp), noWrite (by simp),
      _, s.memErr, s.readEffects, rest, _, ht⟩)))))
  · exact .inr (.inr (.inr (.inr (.inr (.inr ⟨noTurn (by simp), noReset (by simp), noIssue (by simp), noWrite (by simp),
      _, s.memErr, s.readEffects, rest, s.reply, ht⟩)))))
  · refine .inr (.inr (.inr (.inr (.inr (.inr ⟨noTurn (by simp), noReset (by simp), noIssue (by simp), noWrite (by simp), ?_⟩)))))
    unfold State.waitTurn at ht
    split at ht
    · exact ⟨s.mem, s.memErr, s.readEffects, .engine :: .wait :: rest, _, ht⟩
    · exact ⟨s.mem, s.memErr, s.readEffects, rest, _, ht⟩
  · exact .inl ⟨.inr ⟨rest, he⟩, rest, ht⟩
  · exact .inr (.inr (.inr (.inr (.inl ⟨⟨rest, he⟩, rest, ht⟩))))
  · exact .inr (.inr (.inr (.inr (.inr (.inr ⟨noTurn (by simp), noReset (by simp), noIssue (by simp), noWrite (by simp),
      s.mem, g, s.readEffects, rest, s.reply, ht⟩)))))
  · exact .inr (.inr (.inr (.inr (.inr (.inr ⟨noTurn (by simp), noReset (by simp), noIssue (by simp), noWrite (by simp),
      s.mem, s.memErr, g, rest, s.reply, ht⟩)))))

end Sys2Proof.Machine
end

