-- ==== Sys2Proof/Tests/Slice0.lean ====
section
/-! SUPPORT. Tests of the model. Expected values come from spec/95_test_vectors.md and from the examples in the
rules, never from the model. The second half gives, for every statement with hypotheses, a concrete state that
meets them. -/

namespace Sys2Proof.Machine.Test

/-! ## Helpers -/

/-- A field of the next state, if the outcome is one. -/
def got {α : Type} (o : Host.Outcome State Fault Refusal) (f : State → α) : Option α :=
  match o with
  | .next t => some (f t)
  | .fault _ => none
  | .refused _ => none

/-- The reason of a refusal, if the outcome is one. -/
def why (o : Host.Outcome State Fault Refusal) : Option Refusal :=
  match o with
  | .next _ => none
  | .fault _ => none
  | .refused r => some r

/-- `s` with one event to come. -/
def given (s : State) (e : Event) : State := { s with events := [e] }

/-- The start state of the CLEAR row of 95_test_vectors.md 2.3: `STATUS` = 0x00001012. -/
def used : State :=
  { State.reset with
    acc := 0x04030201, lanes := ⟨0xF0D1, 0x30E0, 0xF0B1, 0x3100⟩, count := 12
    data := 5, base := 0x1000, len := 0x20
    status := { Status.zero with done := true, ovr := true, last := .verify } }

/-- A sequence of kind `k` over `[b, b + n)` of zero memory, just accepted. -/
def begun (k : SeqKind) (b n : Word) : State :=
  { State.reset with
    base := b, len := n, phase := .body, status := { Status.zero with busy := true, last := k } }

/-- A running sequence of kind `k` over the 32 bytes at 0x1000, moved to phase `p`. -/
def inPhase (k : SeqKind) (p : Phase) : State := { begun k 0x1000 32 with phase := p, idx := 20, count := 20 }

/-- The platform fails accesses of one direction at one address. -/
def failing (a : Word) (d : Dir) : List ErrRegion := [⟨a, a, d⟩]

/-- The engine's turns end the run after exactly `n` steps. -/
def endsAfter : Nat → State → Bool
  | 0, s => !s.status.busy
  | n + 1, s => s.status.busy && endsAfter n s.engineStep

/-- The state after `n` turns of the engine. -/
def turns : Nat → State → State
  | 0, s => s
  | n + 1, s => turns n s.engineStep

/-- Turns of the engine with no event between are a run of the sequence, when no read has an effect. -/
theorem sequenceRun_turns (mayWrite : Word → Prop) (n : Nat) (s : State) (he : s.events = []) (hr : s.readEffects = [])
    (h : endsAfter n s = true) : SequenceRun mayWrite s (turns n s) := by
  induction n generalizing s with
  | zero => exact .ended s (by simpa [endsAfter] using h)
  | succ n ih =>
    simp only [endsAfter, Bool.and_eq_true] at h
    exact .next s s.engineStep _ h.1 (by simp [he]) (by simp [State.effectsWithin, hr]) (step_noEvents he)
      (ih s.engineStep (by rw [s.engineStep_frame.2.2.2.2.2.1, he]) (by rw [s.engineStep_readEffects, hr]) h.2)

/-- Turns of the engine with no event between make the accesses of the trace. -/
theorem tracedRun_turns (n : Nat) (s : State) (he : s.events = []) (h : endsAfter n s = true) :
    TracedRun s (s.accessTrace n) (turns n s) := by
  induction n generalizing s with
  | zero => exact .here s
  | succ n ih =>
    simp only [endsAfter, Bool.and_eq_true] at h
    exact .turn s s.engineStep _ _ h.1 (.inl he) (step_noEvents he)
      (ih s.engineStep (by rw [s.engineStep_frame.2.2.2.2.2.1, he]) h.2)

/-! ## WellFormed: an ill-formed term for each check -/

theorem test_wf_accepts_window : registerAccessWf 0x100 0x100 32 = true ∧ registerAccessWf 0x100 0x13C 32 = true := by decide
theorem test_wf_refuses_below : registerAccessWf 0x100 0xFC 32 = false := by decide
theorem test_wf_refuses_beyond : registerAccessWf 0x100 0x140 32 = false := by decide
theorem test_wf_refuses_width : registerAccessWf 0x100 0x104 16 = false := by decide
theorem test_wf_refuses_misaligned : registerAccessWf 0x100 0x105 32 = false := by decide
theorem test_wf_refuses_events :
    (Event.regRead 0x102 32).wf 0x100 = false ∧ (Event.regWrite 0x100 8 0).wf 0x100 = false := by decide
theorem test_wf_refuses_commands : commandWordWf 0x7 = false ∧ commandWordWf 0x10 = false := by decide

/-- 20_memory.md R61: each ill-formed access is refused under its own name. -/
theorem test_refused_by_name :
    why (step (given State.reset (.regRead 0x10 16))) = some .registerAccessWidth
      ∧ why (step (given State.reset (.regWrite 0x11 32 0))) = some .registerAccessMisaligned
      ∧ why (step (given State.reset (.regRead 0x40 32))) = some .outsideRegisterWindow := by decide

/-! ## Decode: the words of 30_encoding.md R102, `RSV` then `OP`, bit by bit -/

theorem test_decode_nop : decode (0b0000000000000000000000000000#28 ++ 0b0000#4) = .ok .nop := by decide
theorem test_decode_clear : decode (0b0000000000000000000000000000#28 ++ 0b0001#4) = .ok .clear := by decide
theorem test_decode_feed : decode (0b0000000000000000000000000000#28 ++ 0b0010#4) = .ok .feed := by decide
theorem test_decode_feedcrc : decode (0b0000000000000000000000000000#28 ++ 0b0011#4) = .ok .feedcrc := by decide
theorem test_decode_latch : decode (0b0000000000000000000000000000#28 ++ 0b0100#4) = .ok .latch := by decide
theorem test_decode_verify : decode (0b0000000000000000000000000000#28 ++ 0b0101#4) = .ok .verify := by decide
theorem test_decode_patch : decode (0b0000000000000000000000000000#28 ++ 0b0110#4) = .ok .patch := by decide

/-- 95_test_vectors.md 2.7: the illegal words 0x7, 0xF, 0x10, 0x12 and 0x80000002. -/
theorem test_decode_illegal :
    decode 0x7 = .error .reservedOpcode ∧ decode 0xF = .error .reservedOpcode
      ∧ decode 0x10 = .error .reservedBits ∧ decode 0x12 = .error .reservedBits
      ∧ decode 0x80000002 = .error .reservedBits := by decide

/-- The table's numbering: a row's value is its command word, in any of the byte widths it may be given. -/
theorem test_decodeTableWord :
    decodeTableWord 32 0x6 = some .patch ∧ decodeTableWord 8 0x3 = some .feedcrc
      ∧ decodeTableWord 32 0x00000020 = none ∧ decodeTableWord 64 0x1 = none := by decide

/-- The next step after `withFetchWord` runs exactly that command. -/
theorem test_withFetchWord_latch : step (used.withFetchWord 32 0x4) = exec .latch used := rfl
theorem test_withFetchWord_verify : step (State.reset.withFetchWord 32 0x5) = exec .verify State.reset := rfl

/-! ## Commands -/

/-- 40_control.md R120: ERR = ILLEGAL_CMD is cleared. -/
theorem test_nop_clears_err :
    got (exec .nop { State.reset with status := { Status.zero with err := .illegalCmd } }) (·.status.word)
      = some 0x00000000 := by decide
/-- 95_test_vectors.md 2.3: `STATUS` = 0x0000101E stays. -/
theorem test_nop_keeps_ovr :
    got (exec .nop { State.reset with status := ⟨false, true, true, true, true, .none, .verify⟩ }) (·.status.word)
      = some 0x0000101E := by decide
/-- 40_control.md R121: the example. -/
theorem test_clear :
    used.status.word = 0x00001012
      ∧ got (exec .clear used) (fun t => (t.acc, t.regValue .lane01, t.regValue .lane23, t.count, t.status.word))
        = some (0, 0, 0, 0, 0) := by decide
theorem test_clear_keeps_operands :
    got (exec .clear used) (fun t => (t.data, t.base, t.len)) = some (5, 0x1000, 0x20) := by decide
/-- 41_feed.md R134: the example. -/
theorem test_feed :
    got (exec .feed { State.reset with data := 0x04030201 })
        (fun t => (t.acc, t.regValue .lane01, t.regValue .lane23, t.count))
      = some (0x04030201, 0xC181C0C1, 0xC3010140, 4) := by decide
/-- 41_feed.md R134: the wraps of ACC and COUNT. -/
theorem test_feed_wraps :
    got (exec .feed { State.reset with acc := 0xFFFFFFFF, data := 1, count := 0xFFFFFFFC })
        (fun t => (t.acc, t.count, t.status.word)) = some (0, 0, 0) := by decide
/-- 41_feed.md R135: the example. -/
theorem test_feedcrc :
    got (exec .feedcrc { State.reset with data := 0x12345678 })
        (fun t => (t.acc, t.regValue .lane01, t.regValue .lane23, t.count))
      = some (0, 0x3E802200, 0x0D80D701, 4) := by decide
/-- 95_test_vectors.md P1 line 7: the lanes of line 6 fed `PHI`. -/
theorem test_feedcrc_residue :
    got (exec .feedcrc { State.reset with lanes := ⟨0x00F0, 0x0030, 0x00F0, 0x0031⟩, data := 0x31F030F0 })
        (·.lanes) = some ⟨0, 0, 0, 0⟩ := by decide
/-- 42_patch_writer.md R170: the example. -/
theorem test_latch :
    got (exec .latch used) (fun t => (t.pck, t.plo, t.phi)) = some (0xFBFCFDFF, 0x00B1E0D1, 0x31F030F0) := by decide
/-- 95_test_vectors.md 2.5, second row. -/
theorem test_latch_top_bit :
    got (exec .latch { State.reset with acc := 0x80000000, lanes := ⟨0, 0, 0, 0xA001⟩ })
        (fun t => (t.pck, t.plo, t.phi)) = some (0x80000000, 0x01000000, 0xA0000000) := by decide
/-- 95_test_vectors.md 2.7: `LEN` = 12 is accepted. -/
theorem test_verify_accepted :
    got (exec .verify { State.reset with len := 12 }) (·.status.word) = some 0x00001001 := by decide
/-- 95_test_vectors.md 2.7: BAD_RANGE, and BAD_LENGTH before it. -/
theorem test_verify_rejected :
    got (exec .verify { State.reset with base := 0xFFFFFFF0, len := 32 }) (·.status.word) = some 0x00000300
      ∧ got (exec .verify { State.reset with base := 0xFFFFFFF0, len := 30 }) (·.status.word)
        = some 0x00000200 := by decide
/-- 95_test_vectors.md 2.7: `LEN` = 20 is accepted. -/
theorem test_patch_accepted :
    got (exec .patch { State.reset with len := 20 }) (·.status.word) = some 0x00002001 := by decide
/-- 95_test_vectors.md 2.7: `LEN` = 16 and 22 are rejected. -/
theorem test_patch_rejected :
    got (exec .patch { State.reset with len := 16 }) (·.status.word) = some 0x00000200
      ∧ got (exec .patch { State.reset with len := 22 }) (·.status.word) = some 0x00000200 := by decide

/-! ## The CRC and the lanes -/

/-- 95_test_vectors.md T1. -/
theorem test_table :
    crcTable 0x00 = 0x0000 ∧ crcTable 0x01 = 0xC0C1 ∧ crcTable 0x7F = 0xE041 ∧ crcTable 0x80 = 0xA001
      ∧ crcTable 0xFE = 0x8081 ∧ crcTable 0xFF = 0x4040 := by decide
/-- 95_test_vectors.md T2. -/
theorem test_lane :
    laneStep 0xFFFF 0xFF = 0x00FF ∧ laneStep 0xFFFF 0x00 = 0x40BF ∧ laneStep 0x1234 0x34 = 0x0012
      ∧ laneStep 0x1234 0x00 = 0xD713 := by decide

/-! ## The host port -/

/-- 95_test_vectors.md 2.7, last row. -/
theorem test_base_low_bits :
    got (step (given State.reset (.regWrite 0x08 32 0x13))) (·.regValue .base) = some 0x00000010 := by decide
/-- 95_test_vectors.md 2.7, busy overrun. -/
theorem test_busy_overrun :
    got (step (given (begun .verify 0x1000 32) (.regWrite 0x0C 32 40))) (fun t => (t.status.word, t.len))
      = some (0x00001011, 0x20) := by decide
/-- 10_state.md R40: the views. -/
theorem test_lane_views : used.regValue .lane01 = 0x30E0F0D1 ∧ used.regValue .lane23 = 0x3100F0B1 := by decide
/-- 30_encoding.md R105: `CMD VERIFY` and `WRM` as events. -/
theorem test_notation :
    HostOp.event 0x40 (.cmd .verify) = .regWrite 0x40 32 0x5
      ∧ HostOp.event 0x40 (.wrm 0x1004 0x20) = .memWrite [(0x1004, 0x20), (0x1005, 0), (0x1006, 0), (0x1007, 0)] := by
  decide
/-- 95_test_vectors.md P3 line 1 and P1 lines 2 and 6: the expansions of 30_encoding.md R106. -/
theorem test_pseudo_operations :
    hostEvents 0 (pseudoRunP 0x1000 32)
        = [.regWrite 0x08 32 0x1000, .regWrite 0x0C 32 0x20, .regWrite 0x00 32 6, .wait]
      ∧ hostEvents 0 (pseudoRunV 0x1000 32)
        = [.regWrite 0x08 32 0x1000, .regWrite 0x0C 32 0x20, .regWrite 0x00 32 5, .wait]
      ∧ hostEvents 0 (pseudoFeedW 0x04030201) = [.regWrite 0x04 32 0x04030201, .regWrite 0x00 32 2]
      ∧ hostEvents 0 (pseudoFeedC 0x00B1E0D1) = [.regWrite 0x04 32 0x00B1E0D1, .regWrite 0x00 32 3] := by decide
/-- 70_reset_and_hazards.md R281, R282: reset in phase WLO keeps image memory. -/
theorem test_reset_keeps_memory :
    got (step (given { inPhase .patch .wlo with mem := [(0x1004, 0x20)] } .reset))
        (fun t => (t.status.word, t.phase, t.mem)) = some (0, .idle, [(0x1004, 0x20)]) := by decide

/-! ## Sequencer steps -/

/-- 95_test_vectors.md Q1 step 2: the word fed at offset 4 is `N`. -/
theorem test_body_substitutes_length :
    let t := { begun .patch 0x1000 32 with
      idx := 4, count := 4, acc := 0xEA000006, lanes := ⟨0x0280, 0, 0, 0x8F81⟩ }.engineStep
    t.acc = 0xEA000026 ∧ t.lanes = ⟨0x7802, 0, 0, 0x604F⟩ ∧ t.count = 8 ∧ t.idx = 8 := by decide
/-- 95_test_vectors.md Q3 step 2: VERIFY feeds the value read. -/
theorem test_body_verify_feeds_memory :
    let t := { begun .verify 0x1000 32 with
      idx := 4, count := 4, acc := 0xEA000006, lanes := ⟨0x0280, 0, 0, 0x8F81⟩ }.engineStep
    t.acc = 0xEA000006 ∧ t.lanes = ⟨0xA003, 0, 0, 0x604F⟩ := by decide
/-- 95_test_vectors.md Q2 step 9: both verdicts. -/
theorem test_verdicts :
    let t := { inPhase .verify .crchi with
      mem := [(0x101C, 0xC0), (0x101D, 0xA1), (0x101F, 0xD7)]
      lanes := ⟨0x00C0, 0x00A1, 0, 0x00D7⟩, pck := 0x15FFF9DA, readck := 0x15FFF9DA }.engineStep
    t.status.word = 0x0000100E ∧ t.lanes = ⟨0, 0, 0, 0⟩ := by decide
/-- 95_test_vectors.md Q1 step 8: the checksum word, little-endian. -/
theorem test_wck_writes :
    let t := { inPhase .patch .wck with pck := 0x15FFF9DA }.engineStep
    t.mem = [(0x1014, 0xDA), (0x1015, 0xF9), (0x1016, 0xFF), (0x1017, 0x15)] ∧ t.phase = .wlo := by decide
/-- 95_test_vectors.md F4: a fault on the length field's write. -/
theorem test_fault_on_lenw :
    let t := { inPhase .patch .lenw with memErr := failing 0x1004 .write }.engineStep
    t.status.word = 0x00002402 ∧ t.faddr = 0x1004 ∧ t.mem = [] := by decide

/-- A VERIFY of the word at 0x1000, which the platform clears when it is read (20_memory.md R68). -/
def clearsOnRead : State :=
  { begun .verify 0x1000 32 with mem := [(0x1000, 7), (0x1004, 9)], readEffects := [⟨0x1000, 0x1003, [(0x1000, 0)]⟩] }

/-- 20_memory.md R68, R67: the read returns the word as it stood, then the platform's effect happens; a word the
effect does not belong to is read without it. -/
theorem test_read_effect :
    (let t := clearsOnRead.engineStep
     t.acc = 7 ∧ t.mem = [(0x1004, 9)] ∧ t.engineStep.acc = 16 ∧ t.engineStep.mem = [(0x1004, 9)])
      ∧ { clearsOnRead with idx := 4, count := 4 }.engineStep.mem = clearsOnRead.mem := by decide
/-- 20_memory.md R70: when `MEM_ERR` holds no byte is changed. -/
theorem test_read_effect_not_on_fault :
    { clearsOnRead with memErr := failing 0x1000 .read }.engineStep.mem = clearsOnRead.mem := by decide
/-- 20_memory.md R74, R68: the host's read of two bytes, the second of them in the region. -/
theorem test_read_effect_of_the_host :
    got (step (given clearsOnRead (.memRead 0xFFF 2))) (fun t => (t.reply, t.mem))
      = some (.mem [0, 7], [(0x1004, 9)]) := by decide

/-- Writing what an unlisted byte reads as removes the entry. -/
theorem test_memory_canonical :
    Memory.write (Memory.write [] 5 0x12) 5 0x00 = [] ∧ Memory.write [(5, 0x12)] 3 0x01 = [(3, 0x01), (5, 0x12)] := by
  decide

/-! ## A state that meets the hypotheses of each statement -/

/-- The invariant of a concrete state, from checks that `decide` answers. -/
theorem inv_of {s : State}
    (h : s.mem.wf = true ∧ s.base.toNat % 4 = 0 ∧ (s.phase = .idle ↔ s.status.busy = false)
      ∧ (s.status.ckOk = true ∨ s.status.crcOk = true → s.status.last = .verify ∧ s.status.done = true))
    (hr : s.status.busy = true →
      (s.status.err = .none ∧ s.status.done = false ∧ s.status.ckOk = false ∧ s.status.crcOk = false)
        ∧ (s.status.last ≠ .none ∧ s.len.toNat % 4 = 0 ∧ s.status.last.minLen ≤ s.len.toNat
          ∧ s.base.toNat + s.len.toNat ≤ 2 ^ 32)
        ∧ (s.phase = .rdck ∨ s.phase = .crclo ∨ s.phase = .crchi → s.status.last = .verify)
        ∧ (s.phase = .lenw ∨ s.phase = .wck ∨ s.phase = .wlo ∨ s.phase = .whi → s.status.last = .patch)
        ∧ (s.phase = .body → s.idx.toNat % 4 = 0 ∧ s.idx.toNat + 12 ≤ s.len.toNat)
        ∧ (s.phase = .body → s.count = s.idx)) : s.Inv :=
  ⟨h.1, h.2.1, h.2.2.1,
    fun hb =>
      let ⟨⟨a, b, c, d⟩, ⟨e, f, g, i⟩, j, k, l, m⟩ := hr hb
      ⟨a, b, c, d, e, f, g, i, j, k, l, m⟩,
    h.2.2.2⟩

/-- `s` about to take the host's write of `v` at offset `off`. -/
def writing (s : State) (off : Nat) (v : Word) : State := given s (.regWrite (s.regBase + off) 32 v)

/-- The host about to issue a VERIFY of 12 bytes, the least `LEN`. -/
def verifying : State := writing { State.reset with len := 12 } 0x00 0x5
/-- The host about to issue a PATCH of 20 bytes, the least `LEN`. -/
def patching : State := writing { State.reset with len := 20 } 0x00 0x6
/-- The host about to issue a CLEAR, a verdict, DONE and OVR being 1. -/
def clearing : State := writing { used with status := ⟨false, true, true, true, true, .none, .verify⟩ } 0x00 0x1
/-- A running VERIFY about to be reset. -/
def resetting : State := given (inPhase .verify .rdck) .reset
/-- A VERIFY whose next step is its last. -/
def lastStep : State := inPhase .verify .crchi
/-- A VERIFY whose next access fails. -/
def failingStep : State := { inPhase .verify .rdck with memErr := failing 0x1014 .read }

/-- The host about to write LEN while a sequence runs. -/
def overrun : State := writing lastStep 0x0C 40
/-- The host about to write a byte of the image. -/
def hostWriting : State := given lastStep (.memWrite [(0x1000, 1)])
/-- A PATCH about to write its last word. -/
def lastWrite : State := { inPhase .patch .whi with phi := 0xD7000000 }

theorem starts_verifying : verifying.starts .verify :=
  ⟨⟨rfl, by decide, by decide, by decide⟩, .inl ⟨rfl, rfl, 0x5, ⟨[], rfl⟩, rfl⟩⟩
theorem starts_patching : patching.starts .patch :=
  ⟨⟨rfl, by decide, by decide, by decide⟩, .inr ⟨rfl, rfl, 0x6, ⟨[], rfl⟩, rfl⟩⟩
theorem issues_clearing : clearing.issues .clear := ⟨rfl, 0x1, ⟨[], rfl⟩, rfl⟩
theorem resets_resetting : resetting.resets := ⟨[], rfl⟩
theorem inv_verifying : verifying.Inv := inv_of (by decide) (by decide)
theorem inv_patching : patching.Inv := inv_of (by decide) (by decide)
theorem inv_clearing : clearing.Inv := inv_of (by decide) (by decide)
theorem inv_resetting : resetting.Inv := inv_of (by decide) (by decide)
theorem inv_lastStep : lastStep.Inv := inv_of (by decide) (by decide)
theorem inv_failingStep : failingStep.Inv := inv_of (by decide) (by decide)

/-- The steps that the statements about writers speak of, each from a state with the invariant. -/
theorem steps_of_writers :
    (∃ t, step verifying = .next t ∧ t.status.busy = true ∧ t.status.last ≠ verifying.status.last)
      ∧ (∃ t, step patching = .next t ∧ t.status.busy = true)
      ∧ (∃ t, step clearing = .next t ∧ t.status.done ≠ clearing.status.done
          ∧ t.status.ckOk ≠ clearing.status.ckOk ∧ t.status.ovr = false)
      ∧ (∃ t, step resetting = .next t ∧ t.status.busy = false ∧ t.status.last ≠ resetting.status.last)
      ∧ (∃ t, step lastStep = .next t ∧ t.phase = .idle ∧ t.status.busy = false ∧ t.status.done = true
          ∧ t.status.ckOk ≠ lastStep.status.ckOk ∧ lastStep.engineTurn)
      ∧ (∃ t, step failingStep = .next t ∧ t.status.err ≠ failingStep.status.err ∧ t.faddr ≠ failingStep.faddr
          ∧ failingStep.engineTurn) :=
  ⟨⟨_, rfl, by decide⟩, ⟨_, rfl, by decide⟩, ⟨_, rfl, by decide⟩, ⟨_, rfl, by decide⟩,
    ⟨_, rfl, by decide, by decide, by decide, by decide, .inl rfl⟩,
    ⟨_, rfl, by decide, by decide, .inl rfl⟩⟩

theorem witness_ResetEventRestoresTheEngineOnly : resetting.events = .reset :: [] := rfl
theorem witness_StatusWordFields :
    (writing used 0x10 0xFFFFFFFF).events = .regWrite (0 + 0x10) 32 0xFFFFFFFF :: [] := rfl
theorem witness_RegisterReadsReturnTheMap :
    (given used (.regRead (used.regBase + 0x00) 32)).events = .regRead (used.regBase + 0x00) 32 :: []
      ∧ (given used (.regRead (used.regBase + 0x3C) 32)).events = .regRead (used.regBase + 0x3C) 32 :: []
      ∧ got (step (given used (.regRead 0x18 32))) (·.reply) = some (.reg 0x30E0F0D1) := ⟨rfl, rfl, by decide⟩
theorem witness_ReadOnlyWritesAreIgnored :
    (0x10 ∈ [0x10, 0x14, 0x18, 0x1C, 0x20, 0x24, 0x28, 0x2C, 0x30, 0x34, 0x38, 0x3C]
        ∧ (writing used 0x10 1).events = .regWrite (used.regBase + 0x10) 32 1 :: [])
      ∧ 0x3C ∈ [0x10, 0x14, 0x18, 0x1C, 0x20, 0x24, 0x28, 0x2C, 0x30, 0x34, 0x38, 0x3C]
        ∧ (writing lastStep 0x3C 1).events = .regWrite (lastStep.regBase + 0x3C) 32 1 :: [] :=
  ⟨⟨by decide, rfl⟩, by decide, rfl⟩
theorem witness_BusyWritesOnlySetOvr :
    lastStep.status.busy = true ∧ (0x00 ∈ [0x00, 0x04, 0x08, 0x0C] ∧ 0x0C ∈ [0x00, 0x04, 0x08, 0x0C])
      ∧ (writing lastStep 0x00 1).events = .regWrite (lastStep.regBase + 0x00) 32 1 :: []
      ∧ (writing lastStep 0x0C 1).events = .regWrite (lastStep.regBase + 0x0C) 32 1 :: [] :=
  ⟨rfl, by decide, rfl, rfl⟩
theorem witness_DataRegisterIsTheHosts :
    used.status.busy = false ∧ (writing used 0x04 7).events = .regWrite (used.regBase + 0x04) 32 7 :: []
      ∧ ∃ t, exec .clear used = .next t := ⟨rfl, rfl, _, rfl⟩
theorem witness_BaseRegisterLowBitsAreZero :
    used.status.busy = false ∧ (writing used 0x08 0x13).events = .regWrite (used.regBase + 0x08) 32 0x13 :: []
      ∧ used.base.extractLsb' 0 2 = 0 ∧ (∃ t, step (writing used 0x08 0x13) = .next t)
      ∧ ∃ t, exec .clear used = .next t := ⟨rfl, rfl, by decide, ⟨_, rfl⟩, _, rfl⟩
theorem witness_LenRegisterTakesAnyValue :
    used.status.busy = false ∧ (writing used 0x0C 13).events = .regWrite (used.regBase + 0x0C) 32 13 :: []
      ∧ ∃ t, exec .clear used = .next t := ⟨rfl, rfl, _, rfl⟩
theorem witness_StepRefusesExactlyIllFormedAccesses :
    State.reset.events = [] ∧ (Event.regRead 0x3C 32).wf 0 = true ∧ (Event.regRead 0x40 32).wf 0 = false
      ∧ (given State.reset (.regRead 0x40 32)).events = .regRead 0x40 32 :: [] := ⟨rfl, by decide, by decide, rfl⟩
theorem witness_IllegalCommandChangesOnlyErr :
    used.status.busy = false ∧ illegalWord 0x7 ∧ illegalWord 0x10 ∧ illegalWord 0xFFFFFFFF
      ∧ (writing used 0x00 0x7).events = .regWrite (used.regBase + 0x00) 32 0x7 :: [] :=
  ⟨rfl, .inr (by decide), .inl (by decide), .inl (by decide), rfl⟩
theorem witness_StepRunsTheDecodedCommand :
    decode 0x2 = .ok .feed ∧ (writing used 0x00 0x2).events = .regWrite (used.regBase + 0x00) 32 0x2 :: [] := ⟨rfl, rfl⟩
theorem witness_StepTakesTheNextEvent :
    State.reset.events = [] ∧ (given used .engine).events = .engine :: []
      ∧ ((given clearsOnRead (.memRead 0xFFFFFFFF 2)).events = .memRead 0xFFFFFFFF 2 :: [] ∧ 1 < 2
        ∧ clearsOnRead.mem.wf = true)
      ∧ ((given used (.memWrite [(0, 1), (0xFFFFFFFF, 2), (0, 3)])).events
          = .memWrite [(0, 1), (0xFFFFFFFF, 2), (0, 3)] :: [] ∧ used.mem.wf = true)
      ∧ (given used (.setMemErr [])).events = .setMemErr [] :: []
      ∧ (given used (.setReadEffects [])).events = .setReadEffects [] :: []
      ∧ ((given used .wait).events = .wait :: [] ∧ used.status.busy = false)
      ∧ (given lastStep .wait).events = .wait :: [] ∧ lastStep.status.busy = true :=
  ⟨rfl, rfl, ⟨rfl, by decide, by decide⟩, ⟨rfl, by decide⟩, rfl, rfl, ⟨rfl, rfl⟩, rfl, rfl⟩
/-- The last byte listed for an address is the one that stays. -/
theorem test_memWrite_last_listed :
    got (step (given used (.memWrite [(0, 1), (0xFFFFFFFF, 2), (0, 3)]))) (·.mem) = some [(0, 3), (0xFFFFFFFF, 2)]
      ∧ lastListed [(0, 1), (0xFFFFFFFF, 2), (0, 3)] 0 = some 3 ∧ lastListed [(0, 1)] 1 = none := by decide
/-- For the statements on NOP, FEED, LATCH and their likes: a state with BUSY = 0. -/
theorem witness_NopOnlyClearsErr : used.status.busy = false := rfl
theorem witness_FeedUpdatesAccumulatorAndLanes : used.status.busy = false := rfl
theorem witness_LatchFormsThePatchWords : used.status.busy = false := rfl
theorem witness_ClearStartsAFreshState :
    (used.status.busy = false ∧ used.phase = .idle ∧ ∃ t, exec .clear used = .next t)
      ∧ lastStep.status.busy = true
      ∧ Instr.patch ≠ .clear ∧ (∃ t, exec .patch used = .next t) ∧ used.status.ovr = true :=
  ⟨⟨rfl, rfl, _, rfl⟩, rfl, by decide, ⟨_, rfl⟩, rfl⟩
theorem witness_FeedcrcUpdatesLanesOnly :
    used.status.busy = false ∧ ∃ t u v, exec .latch used = .next t
      ∧ exec .feedcrc { t with data := t.plo } = .next u ∧ exec .feedcrc { u with data := t.phi } = .next v :=
  ⟨rfl, _, _, _, rfl, rfl, rfl⟩
/-- The least lengths, and an image that ends at the top of the space. -/
theorem witness_AcceptedSequenceStartsInBody :
    State.accepts { State.reset with len := 12 } .verify ∧ State.accepts { State.reset with len := 20 } .patch
      ∧ State.accepts { State.reset with base := 0xFFFFFFE0, len := 32 } .patch :=
  ⟨⟨rfl, by decide, by decide, by decide⟩, ⟨rfl, by decide, by decide, by decide⟩, ⟨rfl, by decide, by decide, by decide⟩⟩
theorem witness_BadLengthIsRejected :
    State.reset.status.busy = false ∧ (13#32).extractLsb' 0 2 ≠ 0 ∧ (8#32).toNat < 12 ∧ (22#32).extractLsb' 0 2 ≠ 0
      ∧ (16#32).toNat < 20 := by decide
theorem witness_BadRangeIsRejected :
    State.reset.status.busy = false
      ∧ ((20#32).extractLsb' 0 2 = 0 ∧ (0xFFFFFFF0#32).toNat + (20#32).toNat > 2 ^ 32 ∧ 20 ≤ (20#32).toNat)
      ∧ ((12#32).extractLsb' 0 2 = 0 ∧ (0xFFFFFFF8#32).toNat + (12#32).toNat > 2 ^ 32 ∧ 12 ≤ (12#32).toNat)
      ∧ ((32#32).extractLsb' 0 2 = 0 ∧ (0xFFFFFFE0#32).toNat + (32#32).toNat = 2 ^ 32 ∧ 20 ≤ (32#32).toNat)
      ∧ 31 < (32#32).toNat := by decide
/-- One state for each branch: dropped, illegal, BAD_LENGTH (the greatest short length), BAD_RANGE (the least
excess), accepted, no sequence; and an access that fails. -/
theorem witness_ErrorPriorityOfACommandWrite :
    lastStep.status.busy = true ∧ used.status.busy = false ∧ illegalWord 0x7 ∧ ¬ illegalWord 0x5 ∧ ¬ illegalWord 0x6
      ∧ ¬ illegalWord 0x0
      ∧ (writing used 0x00 0x6).events = .regWrite (used.regBase + 0x00) 32 0x6 :: []
      ∧ ((8#32).toNat < 12 ∧ (16#32).toNat < 20)
      ∧ ((16#32).extractLsb' 0 2 = 0 ∧ 12 ≤ (16#32).toNat ∧ (0xFFFFFFF4#32).toNat + (16#32).toNat > 2 ^ 32)
      ∧ ((12#32).extractLsb' 0 2 = 0 ∧ ¬ (12#32).toNat < 12 ∧ ¬ (0xFFFFFFF4#32).toNat + (12#32).toNat > 2 ^ 32)
      ∧ failingStep.portAccess = some (.read 0x1014) ∧ failingStep.memErrAt 0x1014 .read = true := by
  refine ⟨rfl, rfl, .inr (by decide), ?_, ?_, ?_, rfl, by decide, by decide, by decide, by decide, by decide⟩ <;>
    exact fun h => absurd h (by unfold illegalWord; decide)
theorem witness_ChecksumWordCancelsTheSum : used.status.busy = false ∧ ∃ t, exec .latch used = .next t := ⟨rfl, _, rfl⟩
theorem witness_PrimitiveRouteFormsThePatchWords :
    used.status.busy = false
      ∧ { used with events := hostEvents 0 ([HostOp.cmd .clear] ++ [7, 8].flatMap pseudoFeedW ++ [HostOp.cmd .latch]) }.events
        = hostEvents used.regBase ([HostOp.cmd .clear] ++ [7, 8].flatMap pseudoFeedW ++ [HostOp.cmd .latch]) := ⟨rfl, rfl⟩
theorem witness_WordWriteIsLittleEndian : Memory.wf [(0x1004, 0x20)] = true := by decide
/-- The first body word, and the last before the latch. -/
theorem witness_BodyStepFeedsTheNextWord :
    let s := begun .patch 0x1000 32
    let t := { s with idx := 16 }
    (s.phase = .body ∧ s.idx.toNat + 12 < s.len.toNat ∧ s.memErrAt (s.base + s.idx) .read = false)
      ∧ t.idx.toNat + 12 < t.len.toNat ∧ t.memErrAt (t.base + t.idx) .read = false := by decide
theorem witness_BodyEndsWithTheLatch :
    let s := begun .verify 0x1000 12
    s.phase = .body ∧ s.idx.toNat + 12 = s.len.toNat := by decide
theorem witness_VerifyTailReadsTheTrailer :
    let r := inPhase .verify .rdck
    let l := inPhase .verify .crclo
    let h := inPhase .verify .crchi
    (r.phase = .rdck ∧ r.memErrAt (r.base + r.len - 12) .read = false)
      ∧ (l.phase = .crclo ∧ l.memErrAt (l.base + l.len - 8) .read = false)
      ∧ h.phase = .crchi ∧ h.memErrAt (h.base + h.len - 4) .read = false := by decide
theorem witness_PatchTailWritesFourWords :
    ∀ p ∈ [Phase.lenw, .wck, .wlo, .whi], ∃ a v, (inPhase .patch p).portAccess = some (.write a v)
      ∧ (inPhase .patch p).memErrAt a .write = false ∧ (inPhase .patch p).mem.wf = true
      ∧ (inPhase .patch p).phase = p := by
  intro p hp
  simp only [List.mem_cons, List.not_mem_nil, or_false] at hp
  rcases hp with rfl | rfl | rfl | rfl <;> exact ⟨_, _, rfl, by decide, rfl, rfl⟩
theorem witness_MemFaultAbortsTheSequence :
    failingStep.portAccess = some (.read 0x1014) ∧ failingStep.memErrAt 0x1014 .read = true ∧ failingStep.Inv :=
  ⟨by decide, by decide, inv_failingStep⟩
theorem witness_NoAccessWhileNotBusy : clearing.Inv ∧ clearing.status.busy = false := ⟨inv_clearing, rfl⟩
theorem witness_EveryStepKeepsTheInvariant : lastStep.Inv ∧ ∃ t, step lastStep = .next t := ⟨inv_lastStep, _, rfl⟩
theorem witness_PortAccessesAreAlignedInsideTheImage : lastStep.Inv ∧ lastStep.portAccess = some (.read 0x101C) :=
  ⟨inv_lastStep, by decide⟩
theorem inv_clearsOnRead : clearsOnRead.Inv := inv_of (by decide) (by decide)
theorem inv_hostWriting : hostWriting.Inv := inv_of (by decide) (by decide)
/-- A host's write, the last step of a PATCH, and reads with an effect by the engine and by the host. -/
theorem witness_MemoryChangesOnlyByTheHostOrPatch :
    (hostWriting.Inv ∧ ∃ t, step hostWriting = .next t ∧ t.mem.byteAt 0x1000 ≠ hostWriting.mem.byteAt 0x1000)
      ∧ (lastWrite.Inv ∧ ∃ t, step lastWrite = .next t ∧ t.mem.byteAt 0x101F ≠ lastWrite.mem.byteAt 0x101F)
      ∧ (clearsOnRead.Inv ∧ ∃ t, step clearsOnRead = .next t
        ∧ t.mem.byteAt 0x1000 ≠ clearsOnRead.mem.byteAt 0x1000)
      ∧ (given clearsOnRead (.memRead 0x1000 1)).Inv ∧ ∃ t, step (given clearsOnRead (.memRead 0x1000 1)) = .next t
        ∧ t.mem.byteAt 0x1000 ≠ clearsOnRead.mem.byteAt 0x1000 :=
  ⟨⟨inv_hostWriting, _, rfl, by decide⟩, ⟨inv_of (by decide) (by decide), _, rfl, by decide⟩,
    ⟨inv_clearsOnRead, _, rfl, by decide⟩, inv_of (by decide) (by decide), _, rfl, by decide⟩
/-- One effect that is met and one that is not, a read that is made, one that fails, and a step without a read. -/
theorem witness_ReadHasThePlatformsEffectOnce :
    used.readEffects = []
      ∧ (clearsOnRead.readEffects = ⟨0x1000, 0x1003, [(0x1000, 0)]⟩ :: []
        ∧ (∃ i, i < 2 ∧ (0x1000 : Word) ≤ 0xFFF + BitVec.ofNat 32 i ∧ 0xFFF + BitVec.ofNat 32 i ≤ (0x1003 : Word))
        ∧ ∀ i, i < 1 → ¬ ((0x1000 : Word) ≤ 0x1004 + BitVec.ofNat 32 i ∧ 0x1004 + BitVec.ofNat 32 i ≤ (0x1003 : Word)))
      ∧ (clearsOnRead.mem.wf = true ∧ clearsOnRead.portAccess = some (.read 0x1000)
        ∧ clearsOnRead.memErrAt 0x1000 .read = false)
      ∧ (failingStep.portAccess = some (.read 0x1014) ∧ failingStep.memErrAt 0x1014 .read = true)
      ∧ used.portAccess = none :=
  ⟨rfl, ⟨rfl, ⟨1, by decide⟩, by decide⟩, ⟨by decide, by decide, by decide⟩, ⟨by decide, by decide⟩, rfl⟩
theorem witness_BusyIsWrittenByStartAndFinish :
    (verifying.Inv ∧ verifying.status.busy = false ∧ verifying.starts .verify)
      ∧ (lastStep.Inv ∧ lastStep.status.busy = true ∧ lastStep.phase ≠ .idle) ∧ resetting.Inv ∧ resetting.resets :=
  ⟨⟨inv_verifying, rfl, starts_verifying⟩, ⟨inv_lastStep, rfl, by decide⟩, inv_resetting, resets_resetting⟩
theorem witness_DoneIsWrittenByStartFinishAndClear :
    (patching.Inv ∧ patching.starts .patch) ∧ (clearing.Inv ∧ clearing.issues .clear)
      ∧ (resetting.Inv ∧ resetting.resets) ∧ lastStep.Inv ∧ lastStep.phase ≠ .idle :=
  ⟨⟨inv_patching, starts_patching⟩, ⟨inv_clearing, issues_clearing⟩, ⟨inv_resetting, resets_resetting⟩, inv_lastStep,
    by decide⟩
theorem witness_VerdictsAreWrittenByTheLastVerifyStep : lastStep.Inv ∧ clearing.Inv := ⟨inv_lastStep, inv_clearing⟩
theorem witness_OvrIsSticky :
    ((∃ t, step overrun = .next t) ∧ overrun.status.ovr = false ∧ overrun.status.busy = true
        ∧ overrun.writesReg 0x0C 40)
      ∧ (∃ t, step clearing = .next t) ∧ clearing.status.ovr = true :=
  ⟨⟨⟨_, rfl⟩, rfl, rfl, [], rfl⟩, ⟨_, rfl⟩, rfl⟩
theorem witness_LastIsWrittenAtAcceptance :
    verifying.starts .verify ∧ patching.starts .patch ∧ clearing.issues .clear ∧ resetting.resets :=
  ⟨starts_verifying, starts_patching, issues_clearing, resets_resetting⟩
theorem witness_ErrIsWrittenByCommandsAndMemFaults :
    ∃ t, step failingStep = .next t ∧ t.status.err ≠ failingStep.status.err := ⟨_, rfl, by decide⟩
theorem witness_WritersOfTheReportedRegisters :
    (verifying.Inv ∧ verifying.starts .verify) ∧ (clearing.Inv ∧ clearing.issues .clear)
      ∧ (resetting.Inv ∧ resetting.resets) ∧ failingStep.Inv :=
  ⟨⟨inv_verifying, starts_verifying⟩, ⟨inv_clearing, issues_clearing⟩, ⟨inv_resetting, resets_resetting⟩,
    inv_failingStep⟩
theorem noTurn_hostWriting : ¬ hostWriting.engineTurn := by
  rintro (h | ⟨r, h⟩) <;> cases h
theorem noReset_hostWriting : ¬ hostWriting.resets := by
  rintro ⟨r, h⟩; cases h
theorem witness_EveryTurnTakesOneStepOfTheSequence :
    (lastStep.Inv ∧ lastStep.status.busy = true)
      ∧ (hostWriting.Inv ∧ hostWriting.status.busy = true ∧ ¬ hostWriting.engineTurn ∧ ¬ hostWriting.resets
        ∧ ∃ t, step hostWriting = .next t)
      ∧ (State.accepts { State.reset with len := 12 } .verify ∧ ∃ t, exec .verify { State.reset with len := 12 } = .next t)
      ∧ State.accepts { State.reset with len := 20 } .patch ∧ ∃ t, exec .patch { State.reset with len := 20 } = .next t :=
  ⟨⟨inv_lastStep, rfl⟩, ⟨inv_hostWriting, rfl, noTurn_hostWriting, noReset_hostWriting, _, rfl⟩,
    ⟨⟨rfl, by decide, by decide, by decide⟩, _, rfl⟩, ⟨rfl, by decide, by decide, by decide⟩, _, rfl⟩

/-- The least image of a PATCH, in zero memory (95_test_vectors.md Q4, M1). -/
def small : State := { State.reset with len := 20 }
/-- `small` with its PATCH accepted. -/
def smallBegun : State := begun .patch 0 20
/-- `small` patched. -/
def patched : State := turns 7 smallBegun
/-- `patched` with a VERIFY accepted. -/
def verifyBegun : State := { begun .verify 0 20 with mem := patched.mem }
/-- `patched` with a second PATCH accepted. -/
def patchBegun : State := { begun .patch 0 20 with mem := patched.mem }

theorem small_accepts : small.accepts .patch := ⟨rfl, by decide, by decide, by decide⟩
theorem inv_small : small.Inv := inv_of (by decide) (by decide)
theorem inv_patched : patched.Inv := inv_of (by decide) (by decide)
theorem run_small : SequenceRun (fun _ => False) smallBegun patched := sequenceRun_turns _ 7 _ rfl rfl (by decide)
theorem run_verify : SequenceRun (fun _ => False) verifyBegun (turns 6 verifyBegun) :=
  sequenceRun_turns _ 6 _ rfl rfl (by decide)
theorem run_patch : SequenceRun (fun _ => False) patchBegun (turns 7 patchBegun) :=
  sequenceRun_turns _ 7 _ rfl rfl (by decide)

/-- 95_test_vectors.md Q4, M1: the image after the PATCH. -/
theorem test_small_image :
    patched.mem.readWord 4 = 0x00000014 ∧ patched.mem.readWord 8 = 0xFFFFFFEC ∧ patched.mem.readWord 12 = 0
      ∧ patched.mem.readWord 16 = 0x0000000F := by decide

theorem witness_SequenceTakesExactlyItsSteps :
    small.Inv ∧ small.accepts .patch ∧ small.events = [] ∧ (∀ a d, small.memErrAt a d = false)
      ∧ exec .patch small = .next smallBegun := ⟨inv_small, small_accepts, rfl, fun _ _ => rfl, rfl⟩
/-- No event to come; and a poll, a host write and a change of `MEM_ERR` before the steps left, no reset among them. -/
theorem witness_SequenceAlwaysEnds :
    (failingStep.Inv ∧ failingStep.events = [])
      ∧ (let s := { inPhase .verify .rdck with events := [.wait, .regWrite 0x0C 32 40, .setMemErr (failing 0x101C .read)] }
         s.Inv ∧ (∀ e ∈ s.events, e.wf s.regBase = true) ∧ s.status.busy = true ∧ ∀ e ∈ s.events, e ≠ .reset) :=
  ⟨⟨inv_failingStep, rfl⟩, inv_of (by decide) (by decide), by decide, by decide, by decide⟩
theorem witness_WaitEndsWithBusyZero : (given lastStep .wait).Inv ∧ (given lastStep .wait).events = .wait :: [] :=
  ⟨inv_of (by decide) (by decide), rfl⟩
/-- `small` on a platform that fails the write of the length field (95_test_vectors.md F4). -/
def faulty : State := { small with memErr := failing 4 .write }
/-- `faulty` with its PATCH accepted. -/
def faultyBegun : State := { smallBegun with memErr := failing 4 .write }
/-- A whole PATCH, one that stops at its first write, and a turn of the host between two of the engine. -/
theorem witness_SequenceMakesExactlyItsAccesses :
    (small.Inv ∧ small.accepts .patch ∧ exec .patch small = .next smallBegun
        ∧ TracedRun smallBegun (smallBegun.accessTrace 7) patched ∧ patched.status.busy = false
        ∧ patched.status.err = .none ∧ small.bodyLength + 5 ≤ 7)
      ∧ (faulty.Inv ∧ faulty.accepts .patch ∧ exec .patch faulty = .next faultyBegun
        ∧ TracedRun faultyBegun (faultyBegun.accessTrace 4) (turns 4 faultyBegun)
        ∧ (turns 4 faultyBegun).status.busy = false ∧ (turns 4 faultyBegun).status.err = .memFault
        ∧ faultyBegun.accessTrace 4 = [(0, .read), (4, .read)])
      ∧ ∃ t, TracedRun hostWriting [] t ∧ t.events = [] :=
  ⟨⟨inv_small, small_accepts, rfl, tracedRun_turns 7 _ rfl (by decide), by decide, by decide, by decide⟩,
    ⟨inv_of (by decide) (by decide), ⟨rfl, by decide, by decide, by decide⟩, rfl, tracedRun_turns 4 _ rfl (by decide),
      by decide, by decide, by decide⟩,
    _, .other _ _ _ _ rfl noTurn_hostWriting noReset_hostWriting rfl (.here _), rfl⟩
/-- The host writes the word `a`, then the engine takes its step. -/
def writtenFirst (s : State) (a : Word) : State := { s with events := [HostOp.event 0 (.wrm a 7), .engine] }
/-- The first body word of a VERIFY; the offset 4 and the last body word of a PATCH; RDCK, CRCLO and CRCHI. -/
theorem witness_HostWriteIsSeenByTheNextRead :
    ∀ p ∈ [(begun .verify 0x1000 32, 0x1000), ({ begun .patch 0x1000 32 with idx := 4, count := 4 }, 0x1004),
        ({ begun .patch 0x1000 32 with idx := 16, count := 16 }, 0x1010), (inPhase .verify .rdck, 0x1014),
        (inPhase .verify .crclo, 0x1018), (inPhase .verify .crchi, (0x101C : Word))],
      (writtenFirst p.1 p.2).Inv ∧ (writtenFirst p.1 p.2).portAccess = some (.read p.2)
        ∧ (writtenFirst p.1 p.2).memErrAt p.2 .read = false
        ∧ (writtenFirst p.1 p.2).events
          = HostOp.event (writtenFirst p.1 p.2).regBase (.wrm p.2 7) :: .engine :: [] := by
  intro p hp
  simp only [List.mem_cons, List.not_mem_nil, or_false] at hp
  rcases hp with rfl | rfl | rfl | rfl | rfl | rfl <;>
    exact ⟨inv_of (by decide) (by decide), by decide, rfl, rfl⟩
theorem witness_VerifyClosedForm :
    patched.Inv ∧ patched.accepts .verify ∧ exec .verify patched = .next verifyBegun
      ∧ SequenceRun (fun _ => False) verifyBegun (turns 6 verifyBegun) ∧ (turns 6 verifyBegun).status.err = .none :=
  ⟨inv_patched, ⟨rfl, by decide, by decide, by decide⟩, rfl, run_verify, by decide⟩
theorem witness_PatchClosedForm :
    small.Inv ∧ small.accepts .patch ∧ exec .patch small = .next smallBegun
      ∧ SequenceRun (fun _ => False) smallBegun patched ∧ patched.status.err = .none :=
  ⟨inv_small, small_accepts, rfl, run_small, by decide⟩
theorem witness_PatchThenVerifyPasses :
    (small.Inv ∧ patched.Inv) ∧ (∀ a, False → ¬ small.inImage a) ∧ small.accepts .patch
      ∧ exec .patch small = .next smallBegun ∧ SequenceRun (fun _ => False) smallBegun patched
      ∧ patched.status.err = .none ∧ patched.base = small.base ∧ patched.len = small.len
      ∧ patched.status.busy = false ∧ exec .verify patched = .next verifyBegun
      ∧ SequenceRun (fun _ => False) verifyBegun (turns 6 verifyBegun) ∧ (turns 6 verifyBegun).status.err = .none :=
  ⟨⟨inv_small, inv_patched⟩, fun _ h => h.elim, small_accepts, rfl, run_small, by decide, by decide, by decide,
    by decide, rfl, run_verify, by decide⟩
theorem witness_SecondPatchChangesNothing :
    (small.Inv ∧ patched.Inv) ∧ (∀ a, False → ¬ small.inImage a) ∧ small.accepts .patch
      ∧ exec .patch small = .next smallBegun ∧ SequenceRun (fun _ => False) smallBegun patched
      ∧ patched.status.err = .none ∧ patched.base = small.base ∧ patched.len = small.len
      ∧ patched.status.busy = false ∧ exec .patch patched = .next patchBegun
      ∧ SequenceRun (fun _ => False) patchBegun (turns 7 patchBegun) ∧ (turns 7 patchBegun).status.err = .none :=
  ⟨⟨inv_small, inv_patched⟩, fun _ h => h.elim, small_accepts, rfl, run_small, by decide, by decide, by decide,
    by decide, rfl, run_patch, by decide⟩

end Sys2Proof.Machine.Test
end

/-! PROOFS. The statements of 10_state.md: what a host access of the register window does, what each step
does to `STATUS` (said once, in `statusStep_of_step`), and who writes `BASE` and `DATA`. -/

namespace Sys2Proof.Machine

/-! ## Host accesses of the register window -/

/-- Every one of the four writable registers drops its write while BUSY = 1 (10_state.md R44). -/
theorem regWrite_busy {r : Reg} {s : State} (v : Word) (hb : s.status.busy = true)
    (hr : r ∈ [Reg.cmd, .data, .base, .len]) : regWrite r v s = .next s.dropWrite := by
  simp only [List.mem_cons, List.not_mem_nil, or_false] at hr
  rcases hr with rfl | rfl | rfl | rfl
  case inl =>
    simp only [regWrite, commandWrite]
    cases decode v with
    | ok i => exact (exec_eq i s).trans (acceptCommand_busy hb)
    | error e => exact acceptCommand_busy hb
  all_goals simp [regWrite, writeOperand, hb]

/-- The step of a host write to `CMD`, `DATA`, `BASE` or `LEN` while BUSY = 1. -/
theorem step_of_busyWrite {s : State} {off : Nat} {v : Word} {rest : List Event}
    (hb : s.status.busy = true) (ho : off ∈ [0x00, 0x04, 0x08, 0x0C])
    (he : s.events = .regWrite (s.regBase + off) 32 v :: rest) :
    step s = .next (State.dropWrite { s with events := rest }) := by
  have hr : ∃ r ∈ [Reg.cmd, .data, .base, .len], regAt off = some r := by
    simp only [List.mem_cons, List.not_mem_nil, or_false] at ho
    rcases ho with rfl | rfl | rfl | rfl
    exacts [⟨.cmd, by simp, rfl⟩, ⟨.data, by simp, rfl⟩, ⟨.base, by simp, rfl⟩, ⟨.len, by simp, rfl⟩]
  obtain ⟨r, hmem, hat⟩ := hr
  exact (step_regWrite he hat).trans (regWrite_busy (s := { s with events := rest }) v hb hmem)

/-- The host writes BASE while BUSY = 0. -/
theorem step_writeBase {s : State} {v : Word} {rest : List Event} (hb : s.status.busy = false)
    (he : s.events = .regWrite (s.regBase + 0x08) 32 v :: rest) :
    step s = .next { s with events := rest, base := baseStored v } := by
  rw [step_regWrite he (r := .base) rfl]
  simp [regWrite, writeOperand, hb]

/-! ## What a command does to `STATUS` and to the operand registers -/

/-- No command writes an operand register (30_encoding.md R101). -/
theorem operationOf_operands (i : Instr) (s : State) :
    (operationOf i s).data = s.data ∧ (operationOf i s).base = s.base ∧ (operationOf i s).len = s.len := by
  have hreq : ∀ k m, (s.requestSequence k m).data = s.data ∧ (s.requestSequence k m).base = s.base
      ∧ (s.requestSequence k m).len = s.len := by
    intro k m
    rcases s.requestSequence_cases k m with ⟨-, h⟩ | ⟨-, -, h⟩ | ⟨-, -, h⟩ <;> simp [h]
  cases i
  case verify => exact hreq _ _
  case patch => exact hreq _ _
  all_goals simp [operationOf]

theorem execClear_operands {s t : State} (h : exec .clear s = .next t) :
    t.data = s.data ∧ t.base = s.base := by
  rw [exec_eq] at h
  rcases acceptCommand_cases h with ⟨-, rfl⟩ | ⟨-, rfl⟩
  · simp
  · obtain ⟨hdata, hbase, -⟩ := operationOf_operands .clear (s.raiseError .none)
    exact ⟨hdata, hbase⟩

/-- An accepted sequence passes both checks; `minimum` is the word its command compares LEN with. -/
theorem requestSequence_of_accepts {s : State} {k : SeqKind} {minimum : Word} (hm : minimum.toNat = k.minLen)
    (ha : s.accepts k) : s.requestSequence k minimum = s.startSequence k := by
  obtain ⟨-, hmul, hmin, hrange⟩ := ha
  have hlen : badLength s.len minimum = false := badLength_eq_false.mpr ⟨hmul, hm ▸ hmin⟩
  have hrng : badRange s.base s.len = false := badRange_eq_false.mpr hrange
  simp [State.requestSequence, hlen, hrng]

/-- A requested sequence starts, and then it is one that is accepted, or only ERR is written. -/
theorem requestSequence_starts_or_error {s : State} {k : SeqKind} {minimum : Word}
    (hm : minimum.toNat = k.minLen) (hb : s.status.busy = false) :
    (s.accepts k ∧ s.requestSequence k minimum = s.startSequence k)
      ∨ ∃ code, s.requestSequence k minimum = s.raiseError code := by
  rcases s.requestSequence_cases k minimum with ⟨-, h⟩ | ⟨-, -, h⟩ | ⟨hlen, hrng, h⟩
  · exact .inr ⟨_, h⟩
  · exact .inr ⟨_, h⟩
  · obtain ⟨hmul, hmin⟩ := badLength_eq_false.mp hlen
    exact .inl ⟨⟨hb, hmul, hm ▸ hmin, badRange_eq_false.mp hrng⟩, h⟩

/-- `STATUS` right after the start of a sequence (43_sequencer.md R193). -/
def Status.started (st : Status) (k : SeqKind) : Status :=
  { st with err := .none, ckOk := false, crcOk := false, done := false, last := k, busy := true }

theorem step_status_of_starts {s t : State} {k : SeqKind} (hs : s.starts k) (h : step s = .next t) :
    t.status = s.status.started k := by
  obtain ⟨ha, hk⟩ := hs
  have hstart : ∃ rest, step s = .next (State.startSequence (State.raiseError { s with events := rest } .none) k) := by
    rcases hk with ⟨rfl, hi⟩ | ⟨rfl, hi⟩ <;> obtain ⟨rest, hstep⟩ := step_of_issues hi <;>
      exact ⟨rest, hstep.trans (congrArg _ (requestSequence_of_accepts rfl ha))⟩
  obtain ⟨rest, hstep⟩ := hstart
  cases hstep.symm.trans h
  rfl

theorem step_status_of_clear {s t : State} (hi : s.issues .clear) (h : step s = .next t) :
    t.status = Status.zero := by
  obtain ⟨rest, hstep⟩ := step_of_issues hi
  cases hstep.symm.trans h
  simp [operationOf, hi.1]

theorem step_status_of_resets {s t : State} (hr : s.resets) (h : step s = .next t) : t.status = Status.zero := by
  obtain ⟨rest, hstep⟩ := step_of_resets hr
  cases hstep.symm.trans h
  rfl

theorem step_status_of_busyWrite {s t : State} {off : Nat} {v : Word} (hb : s.status.busy = true)
    (ho : off ∈ [0x00, 0x04, 0x08, 0x0C]) (hw : s.writesReg off v) (h : step s = .next t) :
    t.status = { s.status with ovr := true } := by
  obtain ⟨rest, he⟩ := hw
  cases (step_of_busyWrite hb ho he).symm.trans h
  rfl

/-- A command starts a sequence, is CLEAR, or leaves all of `STATUS` but ERR alone. -/
theorem issues_status_cases {s : State} {i : Instr} (hi : s.issues i) (rest : List Event) :
    (∃ k, s.starts k) ∨ i = .clear
      ∨ ∃ code, (operationOf i (State.raiseError { s with events := rest } .none)).status
          = { s.status with err := code } := by
  have hb := hi.1
  cases i
  case clear => exact .inr (.inl rfl)
  case verify =>
    rcases requestSequence_starts_or_error (s := State.raiseError { s with events := rest } .none)
        (k := .verify) (minimum := Config.minLenVerify) rfl hb with ⟨ha, -⟩ | ⟨code, h⟩
    · exact .inl ⟨.verify, ha, .inl ⟨rfl, hi⟩⟩
    · exact .inr (.inr ⟨code, congrArg State.status h⟩)
  case patch =>
    rcases requestSequence_starts_or_error (s := State.raiseError { s with events := rest } .none)
        (k := .patch) (minimum := Config.minLenPatch) rfl hb with ⟨ha, -⟩ | ⟨code, h⟩
    · exact .inl ⟨.patch, ha, .inr ⟨rfl, hi⟩⟩
    · exact .inr (.inr ⟨code, congrArg State.status h⟩)
  all_goals exact .inr (.inr ⟨.none, rfl⟩)

/-! ## What the engine's turn does to `STATUS` -/

/-- The turn ends the sequence: PHASE goes to IDLE, BUSY to 0 and DONE to 1; of the rest of `STATUS` only the
verdicts and ERR may change (43_sequencer.md R199, R204, R205). -/
def State.EndsTo (s t : State) : Prop :=
  s.phase ≠ .idle ∧ t.phase = .idle ∧ ∃ ck crc err,
    t.status = { s.status with busy := false, done := true, ckOk := ck, crcOk := crc, err := err }

section
variable {s t : State} (h : s.EndsTo t)
include h

theorem State.EndsTo.phase_ne_idle : s.phase ≠ .idle := h.1

theorem State.EndsTo.phase_idle : t.phase = .idle := h.2.1

theorem State.EndsTo.notBusy : t.status.busy = false := by
  obtain ⟨-, -, ck, crc, err, hst⟩ := h
  rw [hst]

theorem State.EndsTo.done : t.status.done = true := by
  obtain ⟨-, -, ck, crc, err, hst⟩ := h
  rw [hst]

theorem State.EndsTo.ovr : t.status.ovr = s.status.ovr := by
  obtain ⟨-, -, ck, crc, err, hst⟩ := h
  rw [hst]

theorem State.EndsTo.last : t.status.last = s.status.last := by
  obtain ⟨-, -, ck, crc, err, hst⟩ := h
  rw [hst]

end

/-- The turn leaves `STATUS` alone and does not end a sequence. -/
def State.GoesOnTo (s t : State) : Prop := t.status = s.status ∧ (t.phase = .idle ↔ s.phase = .idle)

theorem State.quietStep_goesOn (s : State) : s.GoesOnTo s.quietStep := by
  cases h : s.phase
  case body =>
    have hlatch : s.quietStep = s.bodyLatchStep := by simp only [State.quietStep, h]
    have hphase : s.bodyLatchStep.phase ≠ .idle := by
      rw [s.bodyLatchStep_phase]
      split <;> simp
    simpa [State.GoesOnTo, hlatch, h] using hphase
  all_goals simp [State.GoesOnTo, State.quietStep, h]

theorem State.afterRead_goesOn_or_ends (s : State) (w : Word) :
    s.GoesOnTo (s.afterRead w) ∨ s.EndsTo (s.afterRead w) := by
  cases h : s.phase
  case crchi =>
    have hread : s.afterRead w = s.crchiStep w := by simp only [State.afterRead, h]
    exact .inr ⟨by simp [h], by simp [hread], _, _, _, (congrArg State.status hread).trans (s.crchiStep_status w)⟩
  all_goals exact .inl (by simp [State.GoesOnTo, State.afterRead, h])

theorem State.afterWrite_goesOn_or_ends (s : State) :
    s.GoesOnTo s.afterWrite ∨ s.EndsTo s.afterWrite := by
  cases h : s.phase
  case whi =>
    have hwrite : s.afterWrite = s.finish := by simp only [State.afterWrite, State.whiStep, h]
    exact .inr ⟨by simp [h], by simp [hwrite], _, _, _, (congrArg State.status hwrite).trans s.finish_status⟩
  all_goals
    exact .inl (by simp [State.GoesOnTo, State.afterWrite, State.lenwStep, State.wckStep, State.wloStep, h])

theorem State.phase_ne_idle_of_portAccess {s : State} {x : Access} (h : s.portAccess = some x) :
    s.phase ≠ .idle := by
  intro hp
  simp [State.portAccess, hp] at h

/-- The engine's turn goes on with `STATUS` as it is, or ends the sequence. -/
theorem State.engineStep_goesOn_or_ends (s : State) : s.GoesOnTo s.engineStep ∨ s.EndsTo s.engineStep := by
  rcases s.engineStep_cases with ⟨-, h⟩ | ⟨x, hx, -, h⟩ | ⟨a, -, -, h⟩ | ⟨a, v, -, -, h⟩ <;> rw [h]
  · exact .inl s.quietStep_goesOn
  · exact .inr ⟨State.phase_ne_idle_of_portAccess hx, rfl, _, _, _, rfl⟩
  · exact State.afterRead_goesOn_or_ends { s with mem := s.memAfterRead a 4 } _
  · exact State.afterWrite_goesOn_or_ends { s with mem := s.mem.writeWord a v }

theorem step_goesOn_or_ends {s t : State} (he : s.engineTurn) (h : step s = .next t) :
    s.GoesOnTo t ∨ s.EndsTo t := by
  obtain ⟨rest, hstep⟩ := step_of_engineTurn he
  cases hstep.symm.trans h
  exact State.engineStep_goesOn_or_ends { s with events := rest }

/-- An engine's turn that brings PHASE to IDLE is one that ends the sequence. -/
theorem step_ends_of_idle {s t : State} (he : s.engineTurn) (hp : s.phase ≠ .idle) (ht : t.phase = .idle)
    (h : step s = .next t) : s.EndsTo t :=
  (step_goesOn_or_ends he h).resolve_left fun hg => hp (hg.2.mp ht)

/-! ## What a step does to `STATUS` -/

/-- What a step `s` to `t` does to `STATUS`, by its cause. -/
inductive StatusStep (s t : State) : Prop
  | ends (turn : s.engineTurn) (ends : s.EndsTo t)
  | starts (k : SeqKind) (starts : s.starts k) (status : t.status = s.status.started k)
  | clears (issues : s.issues .clear) (status : t.status = Status.zero)
  | resets (resets : s.resets) (status : t.status = Status.zero)
  | drops (busy : s.status.busy = true) (writes : ∃ off ∈ [0x00, 0x04, 0x08, 0x0C], ∃ v, s.writesReg off v)
      (status : t.status = { s.status with ovr := true })
  | errOnly (code : ErrCode) (status : t.status = { s.status with err := code })

theorem StatusStep.unchanged {s t : State} (hst : t.status = s.status) : StatusStep s t :=
  .errOnly s.status.err hst

/-- `STATUS` beside ERR is written by the end and the start of a sequence, CLEAR, reset and a dropped write
only. -/
theorem statusStep_of_step {s t : State} (h : step s = .next t) : StatusStep s t := by
  rcases step_classes h with ⟨he, -⟩ | ⟨i, rest, hi, ht⟩ | ⟨-, -, rest, ht⟩ | ⟨hb, hw, rest, ht⟩ | ⟨hr, -⟩
    | ⟨-, -, rest, d, b, l, ht⟩ | ⟨-, -, -, -, m, e, f, rest, r, ht⟩
  · rcases step_goesOn_or_ends he h with ⟨hst, -⟩ | hends
    · exact .unchanged hst
    · exact .ends he hends
  · rcases issues_status_cases hi rest with ⟨k, hs⟩ | rfl | ⟨code, hst⟩
    · exact .starts k hs (step_status_of_starts hs h)
    · exact .clears hi (step_status_of_clear hi h)
    · exact .errOnly code ((congrArg State.status ht).trans hst)
  · exact .errOnly .illegalCmd (congrArg State.status ht)
  · exact .drops hb hw (congrArg State.status ht)
  · exact .resets hr (step_status_of_resets hr h)
  · exact .unchanged (by rw [ht])
  · exact .unchanged (by rw [ht])

theorem State.starts_verify_or_patch {s : State} {k : SeqKind} (h : s.starts k) :
    s.starts .verify ∨ s.starts .patch := by
  obtain ⟨ha, ⟨rfl, hi⟩ | ⟨rfl, hi⟩⟩ := h
  · exact .inl ⟨ha, .inl ⟨rfl, hi⟩⟩
  · exact .inr ⟨ha, .inr ⟨rfl, hi⟩⟩

/-- Settles O43, by the causes of `StatusStep`; the invariant says that a turn which ends a sequence met BUSY = 1. -/
theorem busyIsWrittenByStartAndFinish : Obligations.BusyIsWrittenByStartAndFinish := by
  unfold Obligations.BusyIsWrittenByStartAndFinish
  intro s t hinv h
  refine ⟨fun hb => ⟨fun ht => ?_, ?_⟩, fun hb ht => ?_, fun he hp htp => ?_, fun hr => ?_⟩
  · cases statusStep_of_step h with
    | ends _ hends => exact absurd (hinv.idleIffNotBusy.mpr hb) hends.phase_ne_idle
    | starts k hs _ => exact State.starts_verify_or_patch hs
    | clears _ hst => simp [hst] at ht
    | resets _ hst => simp [hst] at ht
    | drops hb' _ _ => simp [hb] at hb'
    | errOnly _ hst => simp [hst, hb] at ht
  · rintro (hs | hs) <;> rw [step_status_of_starts hs h] <;> rfl
  · cases statusStep_of_step h with
    | ends he hends => exact .inl ⟨he, hends.done, hends.phase_idle⟩
    | starts k hs hst => simp [hst, Status.started] at ht
    | clears hi _ => simp [hi.1] at hb
    | resets hr _ => exact .inr hr
    | drops _ _ hst => simp [hst, hb] at ht
    | errOnly _ hst => simp [hst, hb] at ht
  · exact (step_ends_of_idle he hp htp h).notBusy
  · rw [step_status_of_resets hr h]

/-- Settles O44, by the causes of `StatusStep`. -/
theorem doneIsWrittenByStartFinishAndClear : Obligations.DoneIsWrittenByStartFinishAndClear := by
  unfold Obligations.DoneIsWrittenByStartFinishAndClear
  intro s t _ h
  refine ⟨?_, fun he hp htp => ?_, fun hne => ?_⟩
  · rintro (hs | hs | hi | hr)
    · rw [step_status_of_starts hs h]; rfl
    · rw [step_status_of_starts hs h]; rfl
    · rw [step_status_of_clear hi h]
    · rw [step_status_of_resets hr h]
  · exact (step_ends_of_idle he hp htp h).done
  · cases statusStep_of_step h with
    | ends he hends => exact .inr (.inr (.inr (.inr ⟨he, hends.phase_ne_idle, hends.phase_idle⟩)))
    | starts k hs _ => exact (State.starts_verify_or_patch hs).imp_right .inl
    | clears hi _ => exact .inr (.inr (.inl hi))
    | resets hr _ => exact .inr (.inr (.inr (.inl hr)))
    | drops _ _ hst => exact absurd (by rw [hst]) hne
    | errOnly _ hst => exact absurd (by rw [hst]) hne

/-- Settles O46, by the causes of `StatusStep`; a dropped write is `step_status_of_busyWrite`. -/
theorem ovrIsSticky : Obligations.OvrIsSticky := by
  unfold Obligations.OvrIsSticky
  intro s t h
  refine ⟨fun ho => ⟨fun ht => ?_, ?_⟩, fun ho => ⟨fun ht => ?_, ?_⟩⟩
  · cases statusStep_of_step h with
    | ends _ hends => simp [hends.ovr, ho] at ht
    | starts k _ hst => simp [hst, Status.started, ho] at ht
    | clears _ hst => simp [hst] at ht
    | resets _ hst => simp [hst] at ht
    | drops hb hw _ => exact ⟨hb, hw⟩
    | errOnly _ hst => simp [hst, ho] at ht
  · rintro ⟨hb, off, hoff, v, hw⟩
    rw [step_status_of_busyWrite hb hoff hw h]
  · cases statusStep_of_step h with
    | ends _ hends => simp [hends.ovr, ho] at ht
    | starts k _ hst => simp [hst, Status.started, ho] at ht
    | clears hi _ => exact .inl hi
    | resets hr _ => exact .inr hr
    | drops _ _ hst => simp [hst] at ht
    | errOnly _ hst => simp [hst, ho] at ht
  · rintro (hi | hr)
    · rw [step_status_of_clear hi h]
    · rw [step_status_of_resets hr h]

/-- Settles O47, by the causes of `StatusStep`; the end of a sequence keeps LAST. -/
theorem lastIsWrittenAtAcceptance : Obligations.LastIsWrittenAtAcceptance := by
  unfold Obligations.LastIsWrittenAtAcceptance
  intro s t h
  refine ⟨fun hs => ?_, fun hs => ?_, ?_, fun hne => ?_⟩
  · rw [step_status_of_starts hs h]; rfl
  · rw [step_status_of_starts hs h]; rfl
  · rintro (hi | hr)
    · rw [step_status_of_clear hi h]
    · rw [step_status_of_resets hr h]
  · cases statusStep_of_step h with
    | ends _ hends => exact absurd hends.last hne
    | starts k hs _ => exact (State.starts_verify_or_patch hs).imp_right .inl
    | clears hi _ => exact .inr (.inr (.inl hi))
    | resets hr _ => exact .inr (.inr (.inr hr))
    | drops _ _ hst => exact absurd (by rw [hst]) hne
    | errOnly _ hst => exact absurd (by rw [hst]) hne

/-! ## Who writes `BASE` -/

theorem baseStored_lowBits (v : Word) : (baseStored v).extractLsb' 0 2 = 0 := by
  have happ : (baseStored v).toNat = (v.extractLsb' 2 30).toNat <<< 2 ||| 0 := BitVec.toNat_append _ _
  rw [← BitVec.toNat_inj, BitVec.extractLsb'_toNat, happ]
  simp [Nat.shiftLeft_eq]

theorem regWrite_base_cases {r : Reg} {v : Word} {s t : State} (h : regWrite r v s = .next t) :
    t.base = s.base ∨ t.base = baseStored v := by
  rcases regWrite_cases h with ⟨-, rfl, -⟩
    | ⟨-, ⟨i, -, -, rfl⟩ | ⟨e, -, -, rfl⟩ | ⟨-, rfl⟩ | ⟨-, rfl⟩ | ⟨-, rfl⟩⟩ | ⟨-, -, -, -, rfl⟩
  · exact .inl rfl
  · obtain ⟨-, hbase, -⟩ := operationOf_operands i (s.raiseError .none)
    exact .inl hbase
  · exact .inl rfl
  · exact .inl rfl
  · exact .inr rfl
  · exact .inl rfl
  · exact .inl rfl

theorem State.engineStep_base (s : State) : s.engineStep.base = s.base := by
  obtain ⟨-, hbase, -⟩ := s.engineStep_frame
  exact hbase

theorem State.waitTurn_base (s : State) : s.waitTurn.base = s.base := by
  unfold State.waitTurn
  split <;> rfl

/-- A step keeps BASE, stores a written word in it, or resets it. -/
theorem step_base_cases {s t : State} (h : step s = .next t) :
    t.base = s.base ∨ (∃ v, t.base = baseStored v) ∨ t.base = 0 := by
  rcases step_cases h with ⟨-, rfl⟩ | ⟨e, rest, s0, -, rfl, hh⟩
  · exact .inl s.engineStep_base
  rcases hh with ⟨a, w, r, -, -, -, -, rfl⟩ | ⟨a, w, v, r, -, -, -, -, hw⟩ | ⟨a, n, -, rfl⟩ | ⟨cells, -, rfl⟩
    | ⟨-, rfl⟩ | ⟨-, rfl⟩ | ⟨-, rfl⟩ | ⟨g, -, rfl⟩ | ⟨g, -, rfl⟩
  · exact .inl rfl
  · exact (regWrite_base_cases hw).imp_right fun hb => .inl ⟨v, hb⟩
  · exact .inl rfl
  · exact .inl rfl
  · exact .inl (State.waitTurn_base _)
  · exact .inl (State.engineStep_base _)
  · exact .inr (.inr rfl)
  · exact .inl rfl
  · exact .inl rfl

/-- Settles O8, by the three things a step can do to BASE (`step_base_cases`). -/
theorem baseRegisterLowBitsAreZero : Obligations.BaseRegisterLowBitsAreZero := by
  unfold Obligations.BaseRegisterLowBitsAreZero
  refine ⟨fun s v rest hb he => step_writeBase hb he, fun s rest he => step_regRead he (r := .base) rfl,
    fun s t hlow h => ?_, State.engineStep_base, fun s t h => (execClear_operands h).2, rfl⟩
  rcases step_base_cases h with hb | ⟨v, hb⟩ | hb <;> rw [hb]
  · exact hlow
  · exact baseStored_lowBits v
  · rfl

/-! ## Reset and the register map -/

/-- Settles O1, by evaluating the reset state, one register of the map at a time. -/
theorem resetStateIsAllZero : Obligations.ResetStateIsAllZero := by
  unfold Obligations.ResetStateIsAllZero
  have hmap : ∀ reg, State.reset.regValue reg = 0 := by
    intro reg
    cases reg <;> rfl
  exact ⟨rfl, rfl, rfl, rfl, rfl, rfl, rfl, rfl, rfl, rfl, rfl, rfl, hmap .status, rfl, rfl, hmap⟩

/-- Settles O4, offset by offset, then `step_regRead`. -/
theorem registerReadsReturnTheMap : Obligations.RegisterReadsReturnTheMap := by
  unfold Obligations.RegisterReadsReturnTheMap
  intro s off v rest hmem he
  have hr : ∃ r, regAt off = some r ∧ s.regValue r = v := by
    simp only [List.mem_cons, List.not_mem_nil, or_false, Prod.mk.injEq] at hmem
    rcases hmem with ⟨rfl, rfl⟩ | ⟨rfl, rfl⟩ | ⟨rfl, rfl⟩ | ⟨rfl, rfl⟩ | ⟨rfl, rfl⟩ | ⟨rfl, rfl⟩ | ⟨rfl, rfl⟩
      | ⟨rfl, rfl⟩ | ⟨rfl, rfl⟩ | ⟨rfl, rfl⟩ | ⟨rfl, rfl⟩ | ⟨rfl, rfl⟩ | ⟨rfl, rfl⟩ | ⟨rfl, rfl⟩ | ⟨rfl, rfl⟩
      | ⟨rfl, rfl⟩ <;> exact ⟨_, rfl, rfl⟩
  obtain ⟨r, hat, rfl⟩ := hr
  exact step_regRead he hat

/-- Settles O5, offset by offset: `regWrite` of such a register is the identity. -/
theorem readOnlyWritesAreIgnored : Obligations.ReadOnlyWritesAreIgnored := by
  unfold Obligations.ReadOnlyWritesAreIgnored
  intro s off v rest hmem he
  have hr : ∃ r, regAt off = some r ∧ ∀ u, regWrite r v u = .next u := by
    simp only [List.mem_cons, List.not_mem_nil, or_false] at hmem
    rcases hmem with rfl | rfl | rfl | rfl | rfl | rfl | rfl | rfl | rfl | rfl | rfl | rfl <;>
      exact ⟨_, rfl, fun _ => rfl⟩
  obtain ⟨r, hat, hignored⟩ := hr
  rw [step_regWrite he hat, hignored]

/-- Settles O6: `step_of_busyWrite`. -/
theorem busyWritesOnlySetOvr : Obligations.BusyWritesOnlySetOvr := by
  unfold Obligations.BusyWritesOnlySetOvr
  exact fun s off v rest hb hoff he => step_of_busyWrite hb hoff he

/-- Settles O7, from the steps of a DATA access and the frames of the engine's turn and of CLEAR. -/
theorem dataRegisterIsTheHosts : Obligations.DataRegisterIsTheHosts := by
  unfold Obligations.DataRegisterIsTheHosts
  exact ⟨fun s v rest hb he => step_writeData hb he, fun s rest he => step_regRead he (r := .data) rfl,
    fun s => s.engineStep_frame.1, fun s t h => (execClear_operands h).1, rfl⟩

end Sys2Proof.Machine

section
/-! PROOFS. The statements of 20_memory.md: the value and the bytes of a word read from image memory. -/

namespace Sys2Proof.Machine

theorem toNat_append_eq_add {k n : Nat} (x : BitVec k) (y : BitVec n) :
    (x ++ y).toNat = 2 ^ n * x.toNat + y.toNat := by
  rw [BitVec.toNat_append, ← Nat.shiftLeft_add_eq_or_of_lt y.isLt, Nat.shiftLeft_eq, Nat.mul_comm]

/-- The four shifted bytes of a read do not overlap: the word is their concatenation, `m[a]` lowest. -/
theorem Memory.readWord_eq_append (m : Memory) (a : Word) :
    m.readWord a = m.byteAt (a + 3) ++ m.byteAt (a + 2) ++ m.byteAt (a + 1) ++ m.byteAt a := by
  ext i hi
  simp only [Memory.readWord, BitVec.getElem_or, BitVec.getElem_shiftLeft, BitVec.getElem_setWidth]
  grind

theorem Memory.readWord_toNat (m : Memory) (a : Word) :
    (m.readWord a).toNat = (m.byteAt a).toNat + 2 ^ 8 * (m.byteAt (a + 1)).toNat
      + 2 ^ 16 * (m.byteAt (a + 2)).toNat + 2 ^ 24 * (m.byteAt (a + 3)).toNat := by
  rw [Memory.readWord_eq_append]
  simp only [toNat_append_eq_add]
  omega

/-- Byte `i` of a word is the digit of weight `2 ^ (8 * i)` of its value (20_memory.md R65). -/
theorem wordByte_toNat (w : Word) (i : Nat) : (wordByte w i).toNat = w.toNat / 2 ^ (8 * i) % 2 ^ 8 := by
  rw [wordByte, BitVec.extractLsb'_toNat, Nat.shiftRight_eq_div_pow]

/-- Byte `i` of the word read from `a` is `m[a+i]`: both are the digit `i` of its value. -/
theorem Memory.wordByte_readWord (m : Memory) (a : Word) {i : Nat} (hi : i < 4) :
    wordByte (m.readWord a) i = m.byteAt (a + BitVec.ofNat 32 i) := by
  apply BitVec.eq_of_toNat_eq
  rw [wordByte_toNat, Memory.readWord_toNat]
  interval_cases i <;> simp only [BitVec.ofNat_eq_ofNat, BitVec.add_zero] <;> omega

/-- Settles O31: `Memory.readWord_toNat` for the value, `Memory.wordByte_readWord` for each byte. -/
theorem wordReadIsLittleEndian : Obligations.WordReadIsLittleEndian := by
  unfold Obligations.WordReadIsLittleEndian
  intro m a
  have hbyte0 : wordByte (m.readWord a) 0 = m.byteAt a := by
    rw [Memory.wordByte_readWord m a (by decide), BitVec.add_zero]
  exact ⟨m.readWord_toNat a, hbyte0, m.wordByte_readWord a (i := 1) (by decide),
    m.wordByte_readWord a (i := 2) (by decide), m.wordByte_readWord a (i := 3) (by decide)⟩

end Sys2Proof.Machine
end

section
/-! PROOFS. The statements of 40_control.md: NOP and CLEAR, and OVR under the other commands. -/

namespace Sys2Proof.Machine

/-- A command while BUSY = 1 is a dropped write, whatever the command (10_state.md R44). -/
theorem exec_of_busy {s : State} (i : Instr) (hb : s.status.busy = true) : exec i s = .next s.dropWrite :=
  (exec_eq i s).trans (acceptCommand_busy hb)

/-- A command while BUSY = 0 is its operation on the state with ERR cleared (30_encoding.md R103). -/
theorem exec_of_idle {s : State} (i : Instr) (hb : s.status.busy = false) :
    exec i s = .next (operationOf i (s.raiseError .none)) :=
  (exec_eq i s).trans (acceptCommand_idle hb)

/-- Settles O16: NOP's own operation is the identity. -/
theorem nopOnlyClearsErr : Obligations.NopOnlyClearsErr := by
  unfold Obligations.NopOnlyClearsErr
  exact ⟨rfl, fun s hb => exec_of_idle .nop hb⟩

/-- CLEAR writes every field of `STATUS` but BUSY, and BUSY is already 0 (40_control.md R121). -/
theorem exec_clear_of_idle {s : State} (hb : s.status.busy = false) :
    exec .clear s = .next { s with
      acc := 0, lanes := Lanes.init, count := 0, pck := 0, plo := 0, phi := 0, readck := 0, faddr := 0
      status := Status.zero } := by
  have hstatus : { Status.zero with busy := s.status.busy } = Status.zero := by rw [hb]
  rw [exec_of_idle .clear hb, ← hstatus]
  rfl

/-- A requested sequence, started or rejected, leaves OVR alone. -/
theorem State.requestSequence_ovr (s : State) (k : SeqKind) (minimum : Word) :
    (s.requestSequence k minimum).status.ovr = s.status.ovr := by
  rcases s.requestSequence_cases k minimum with ⟨-, h⟩ | ⟨-, -, h⟩ | ⟨-, -, h⟩ <;> rw [h] <;> rfl

theorem operationOf_ovr {i : Instr} (hi : i ≠ .clear) (s : State) :
    (operationOf i s).status.ovr = s.status.ovr := by
  cases i
  case clear => exact absurd rfl hi
  case verify => exact s.requestSequence_ovr _ _
  case patch => exact s.requestSequence_ovr _ _
  all_goals rfl

/-- A dropped command sets OVR and an accepted one other than CLEAR leaves it alone (10_state.md R33). -/
theorem exec_keeps_ovr {i : Instr} {s t : State} (hi : i ≠ .clear) (h : exec i s = .next t)
    (ho : s.status.ovr = true) : t.status.ovr = true := by
  rw [exec_eq] at h
  rcases acceptCommand_cases h with ⟨-, rfl⟩ | ⟨-, rfl⟩
  · rfl
  · exact (operationOf_ovr hi _).trans ho

/-- Settles O17: `exec_clear_of_idle` for what CLEAR writes, `exec_of_busy` for the drop, `exec_keeps_ovr` for
the other commands. -/
theorem clearStartsAFreshState : Obligations.ClearStartsAFreshState := by
  unfold Obligations.ClearStartsAFreshState
  refine ⟨rfl, fun s hb => exec_clear_of_idle hb, fun s t hb hp h => ?_, fun s hb => exec_of_busy .clear hb,
    fun i s t hi h ho => exec_keeps_ovr hi h ho⟩
  cases (exec_clear_of_idle hb).symm.trans h
  rw [hp]
  rfl

end Sys2Proof.Machine
end

section
/-! PROOFS. The statements of 41_feed.md: FEED, FEEDCRC, and the residue of a lane fed its own bytes. -/

namespace Sys2Proof.Machine

/-- The lane law of the statements is the model's (41_feed.md R133). -/
theorem lanesFed_eq_feed (ls : Lanes) (w : Word) : lanesFed ls w = ls.feed w := rfl

/-- Settles O18: FEED's own operation is `State.feedWord` of DATA. -/
theorem feedUpdatesAccumulatorAndLanes : Obligations.FeedUpdatesAccumulatorAndLanes := by
  unfold Obligations.FeedUpdatesAccumulatorAndLanes
  refine ⟨rfl, fun s hb => ?_⟩
  rw [lanesFed_eq_feed]
  exact exec_of_idle .feed hb

/-! ## The residue of a lane (41_feed.md R136) -/

theorem crcTable_zero : crcTable 0 = 0 := by decide

/-- A lane's own low byte cancels in the table index, and `T[0] = 0`. -/
theorem laneStep_lowByte (l : Lane) : laneStep l (l.extractLsb' 0 8) = l >>> 8 := by
  have hindex : ((l ^^^ (l.extractLsb' 0 8).setWidth 16) &&& 0x00FF).setWidth 8 = 0 := by
    ext i hi
    simp [Nat.lt_of_lt_of_le hi]
  rw [laneStep, hindex, crcTable_zero]
  exact BitVec.xor_zero

/-- What is left after the low byte is the high byte, which is then the low byte. -/
theorem laneStep_lowByte_highByte (l : Lane) :
    laneStep (laneStep l (l.extractLsb' 0 8)) (l.extractLsb' 8 8) = 0 := by
  have hhigh : l.extractLsb' 8 8 = (l >>> 8).extractLsb' 0 8 := by
    ext i hi
    simp
  rw [laneStep_lowByte, hhigh, laneStep_lowByte, ← BitVec.shiftRight_add]
  exact BitVec.ushiftRight_eq_zero (Nat.le_refl 16)

/-! ## The lanes fed their own patch words (42_patch_writer.md R176) -/

/-- Byte `i` of four joined bytes is the `i`-th from the right: the digit of weight `2 ^ (8 * i)`. -/
theorem wordByte_append (b3 b2 b1 b0 : Byte) :
    wordByte (b3 ++ b2 ++ b1 ++ b0) 0 = b0 ∧ wordByte (b3 ++ b2 ++ b1 ++ b0) 1 = b1
      ∧ wordByte (b3 ++ b2 ++ b1 ++ b0) 2 = b2 ∧ wordByte (b3 ++ b2 ++ b1 ++ b0) 3 = b3 := by
  simp only [← BitVec.toNat_inj, wordByte_toNat, toNat_append_eq_add]
  omega

/-- Byte `i` of the CRC-low word is lane `i`'s low byte, and of the CRC-high word its high byte. -/
theorem Lanes.feed_crcLowWord_crcHighWord (ls : Lanes) :
    (ls.feed (crcLowWord ls)).feed (crcHighWord ls) = ⟨0, 0, 0, 0⟩ := by
  simp [Lanes.feed, crcLowWord, crcHighWord, wordByte_append, laneStep_lowByte_highByte]

/-- FEEDCRC's own operation is `State.feedLanes` of DATA, on the state with ERR cleared. -/
theorem exec_feedcrc_of_idle {s : State} (hb : s.status.busy = false) :
    exec .feedcrc s = .next ((s.raiseError .none).feedLanes s.data) :=
  exec_of_idle .feedcrc hb

/-- LATCH and then FEEDCRC of PLO and of PHI: the lanes are fed the words captured from them. None of the three
commands moves BUSY, so `hb` says of each that it is accepted. -/
theorem lanes_of_latch_feedcrc_plo_phi {s t u v : State} (hb : s.status.busy = false)
    (hlatch : exec .latch s = .next t) (hlow : exec .feedcrc { t with data := t.plo } = .next u)
    (hhigh : exec .feedcrc { u with data := t.phi } = .next v) : v.lanes = ⟨0, 0, 0, 0⟩ := by
  cases (exec_of_idle .latch hb).symm.trans hlatch
  cases (exec_feedcrc_of_idle (by exact hb)).symm.trans hlow
  cases (exec_feedcrc_of_idle (by exact hb)).symm.trans hhigh
  exact s.lanes.feed_crcLowWord_crcHighWord

/-- Settles O19: FEEDCRC's own operation is `State.feedLanes` of DATA, and a LATCH captures the bytes that cancel
the lanes (`lanes_of_latch_feedcrc_plo_phi`). -/
theorem feedcrcUpdatesLanesOnly : Obligations.FeedcrcUpdatesLanesOnly := by
  unfold Obligations.FeedcrcUpdatesLanesOnly
  refine ⟨rfl, fun s hb => ?_, fun s t u v hb => lanes_of_latch_feedcrc_plo_phi hb⟩
  rw [lanesFed_eq_feed]
  exact exec_feedcrc_of_idle hb

end Sys2Proof.Machine
end

section
/-! PROOFS. The statement of 42_patch_writer.md: what LATCH captures. -/

namespace Sys2Proof.Machine

/-- LATCH's own operation is `State.latchWords`, on the state with ERR cleared. It reads only the accumulator and
the lanes, which clearing ERR leaves alone. -/
theorem exec_latch_of_idle {s : State} (hb : s.status.busy = false) :
    exec .latch s = .next { s with
      pck := checksumWord s.acc, plo := crcLowWord s.lanes, phi := crcHighWord s.lanes
      status := { s.status with err := .none } } :=
  exec_of_idle .latch hb

/-- Settles O20: `exec_latch_of_idle`, with the three patch words written out. -/
theorem latchFormsThePatchWords : Obligations.LatchFormsThePatchWords := by
  unfold Obligations.LatchFormsThePatchWords
  refine ⟨rfl, fun s hb => ?_⟩
  rw [exec_latch_of_idle hb, checksumWord, crcLowWord, crcHighWord]

end Sys2Proof.Machine
end

section
/-! PROOFS. The statements of 43_sequencer.md: how a sequence starts, and what each of its steps does to the
whole state. -/

namespace Sys2Proof.Machine

/-! ## The start of a sequence -/

/-- The initialisation of a sequence in the event of the CMD write, field by field: BUSY, ERR and the verdicts do
not depend on the state before, OVR is kept (43_sequencer.md R193). -/
theorem State.startSequence_raiseError_none (s : State) (k : SeqKind) :
    (s.raiseError .none).startSequence k = { s with
      acc := 0, lanes := ⟨0, 0, 0, 0⟩, count := 0, pck := 0, plo := 0, phi := 0, readck := 0, faddr := 0
      status :=
        { busy := true, done := false, ckOk := false, crcOk := false, ovr := s.status.ovr
          err := .none, last := k }
      idx := 0, phase := .body } := rfl

/-- A command that requests a sequence starts it when the state accepts it; the decode's write of ERR moves none of
the operands the checks read. -/
theorem exec_of_accepts {s : State} {i : Instr} {k : SeqKind} {minimum : Word}
    (hop : operationOf i = fun t => t.requestSequence k minimum) (hm : minimum.toNat = k.minLen)
    (ha : s.accepts k) : exec i s = .next ((s.raiseError .none).startSequence k) := by
  have hstart : (s.raiseError .none).requestSequence k minimum = (s.raiseError .none).startSequence k :=
    requestSequence_of_accepts hm ha
  rw [exec_of_idle i ha.1, hop]
  exact congrArg _ hstart

/-- Settles O21: each command compares LEN with the least length of its own kind (`exec_of_accepts`). -/
theorem acceptedSequenceStartsInBody : Obligations.AcceptedSequenceStartsInBody := by
  unfold Obligations.AcceptedSequenceStartsInBody
  intro s
  rw [← s.startSequence_raiseError_none, ← s.startSequence_raiseError_none]
  exact ⟨exec_of_accepts (i := .verify) (minimum := Config.minLenVerify) rfl rfl,
    exec_of_accepts (i := .patch) (minimum := Config.minLenPatch) rfl rfl⟩

/-! ## The access of each phase -/

section
variable {s : State}

/-- Where the image holds the trailer, the body has words left exactly up to the trailer. -/
theorem State.bodyLeft_iff (hl : 12 ≤ s.len.toNat) : s.bodyLeft = true ↔ s.idx.toNat + 12 < s.len.toNat := by
  simp only [State.bodyLeft, decide_eq_true_eq]
  bv_omega

theorem State.portAccess_body (hp : s.phase = .body) (hl : s.idx.toNat + 12 < s.len.toNat) :
    s.portAccess = some (.read (s.base + s.idx)) := by
  have hleft : s.bodyLeft = true := (State.bodyLeft_iff (by omega)).mpr hl
  simp [State.portAccess, hp, hleft]

theorem State.portAccess_bodyEnd (hp : s.phase = .body) (hl : s.idx.toNat + 12 = s.len.toNat) :
    s.portAccess = none := by
  have hleft : ¬ s.bodyLeft = true := fun h => Nat.ne_of_lt ((State.bodyLeft_iff (by omega)).mp h) hl
  simp [State.portAccess, hp, hleft]

theorem State.portAccess_rdck (hp : s.phase = .rdck) :
    s.portAccess = some (.read (s.base + s.len - 12)) := by
  simp only [State.portAccess, hp, State.trailerAddr]

theorem State.portAccess_crclo (hp : s.phase = .crclo) :
    s.portAccess = some (.read (s.base + s.len - 8)) := by
  simp only [State.portAccess, hp, State.trailerAddr]

theorem State.portAccess_crchi (hp : s.phase = .crchi) :
    s.portAccess = some (.read (s.base + s.len - 4)) := by
  simp only [State.portAccess, hp, State.trailerAddr]

theorem State.portAccess_lenw (hp : s.phase = .lenw) :
    s.portAccess = some (.write (s.base + 4) s.len) := by
  simp only [State.portAccess, hp]

theorem State.portAccess_wck (hp : s.phase = .wck) :
    s.portAccess = some (.write (s.base + s.len - 12) s.pck) := by
  simp only [State.portAccess, hp, State.trailerAddr]

theorem State.portAccess_wlo (hp : s.phase = .wlo) :
    s.portAccess = some (.write (s.base + s.len - 8) s.plo) := by
  simp only [State.portAccess, hp, State.trailerAddr]

theorem State.portAccess_whi (hp : s.phase = .whi) :
    s.portAccess = some (.write (s.base + s.len - 4) s.phi) := by
  simp only [State.portAccess, hp, State.trailerAddr]

/-- Only the four steps of PATCH's tail write (43_sequencer.md R200 to R203). -/
theorem State.phase_of_portAccess_write {a v : Word} (h : s.portAccess = some (.write a v)) :
    s.phase = .lenw ∨ s.phase = .wck ∨ s.phase = .wlo ∨ s.phase = .whi := by
  cases hp : s.phase
  case lenw | wck | wlo | whi => simp
  case body => cases hl : s.bodyLeft <;> simp [State.portAccess, hp, hl] at h
  all_goals simp [State.portAccess, hp] at h

/-! ## The engine's turn, by its access -/

theorem State.engineStep_of_noAccess (h : s.portAccess = none) : s.engineStep = s.quietStep := by
  simp only [State.engineStep, h]

theorem State.engineStep_of_memErr {x : Access} (h : s.portAccess = some x)
    (he : s.memErrAt x.addr x.dir = true) : s.engineStep = s.memFault x.addr := by
  cases x with
  | read a => simp only [State.engineStep, h]; exact if_pos he
  | write a v => simp only [State.engineStep, h]; exact if_pos he

/-- What a step does with the word it read neither reads nor writes image memory. -/
theorem State.afterRead_withMem (s : State) (m : Memory) (w : Word) :
    { s with mem := m }.afterRead w = { s.afterRead w with mem := m } := by
  obtain ⟨_, _, _, _, _, _, _, _, _, _, _, _, phase, _⟩ := s
  cases phase <;> rfl

/-- What a step does once its write is made neither reads nor writes image memory. -/
theorem State.afterWrite_withMem (s : State) (m : Memory) :
    { s with mem := m }.afterWrite = { s.afterWrite with mem := m } := by
  obtain ⟨_, _, _, _, _, _, _, _, _, _, _, _, phase, _⟩ := s
  cases phase <;> rfl

theorem State.engineStep_of_read {a : Word} (h : s.portAccess = some (.read a))
    (he : s.memErrAt a .read = false) :
    s.engineStep = { s.afterRead (s.mem.readWord a) with mem := s.memAfterRead a 4 } := by
  rw [← State.afterRead_withMem]
  simp [State.engineStep, h, he]

theorem State.engineStep_of_write {a v : Word} (h : s.portAccess = some (.write a v))
    (he : s.memErrAt a .write = false) :
    s.engineStep = { s.afterWrite with mem := s.mem.writeWord a v } := by
  rw [← State.afterWrite_withMem]
  simp [State.engineStep, h, he]

/-! ## What each phase does with its access -/

theorem State.afterRead_body (hp : s.phase = .body) (w : Word) : s.afterRead w = s.bodyReadStep w := by
  simp only [State.afterRead, hp]

theorem State.quietStep_body (hp : s.phase = .body) : s.quietStep = s.bodyLatchStep := by
  simp only [State.quietStep, hp]

theorem State.afterRead_rdck (hp : s.phase = .rdck) (w : Word) : s.afterRead w = s.rdckStep w := by
  simp only [State.afterRead, hp]

theorem State.afterRead_crclo (hp : s.phase = .crclo) (w : Word) : s.afterRead w = s.crcloStep w := by
  simp only [State.afterRead, hp]

theorem State.afterRead_crchi (hp : s.phase = .crchi) (w : Word) : s.afterRead w = s.crchiStep w := by
  simp only [State.afterRead, hp]

theorem State.afterWrite_lenw (hp : s.phase = .lenw) : s.afterWrite = { s with phase := .wck } := by
  simp only [State.afterWrite, hp, State.lenwStep]

theorem State.afterWrite_wck (hp : s.phase = .wck) : s.afterWrite = { s with phase := .wlo } := by
  simp only [State.afterWrite, hp, State.wckStep]

theorem State.afterWrite_wlo (hp : s.phase = .wlo) : s.afterWrite = { s with phase := .whi } := by
  simp only [State.afterWrite, hp, State.wloStep]

theorem State.afterWrite_whi (hp : s.phase = .whi) : s.afterWrite = s.finish := by
  simp only [State.afterWrite, hp, State.whiStep]

end

/-! ## BODY -/

/-- Settles O33: the read of BODY (`State.portAccess_body`), then `State.bodyReadStep`. -/
theorem bodyStepFeedsTheNextWord : Obligations.BodyStepFeedsTheNextWord := by
  unfold Obligations.BodyStepFeedsTheNextWord
  intro s hp hl
  have ha := State.portAccess_body hp hl
  refine ⟨ha, fun he w hw => ?_⟩
  rw [State.engineStep_of_read ha he, State.afterRead_body hp, lanesFed_eq_feed, hw]
  rfl

/-- Settles O34: at the end of the body there is no access (`State.portAccess_bodyEnd`), only the latch. -/
theorem bodyEndsWithTheLatch : Obligations.BodyEndsWithTheLatch := by
  unfold Obligations.BodyEndsWithTheLatch
  intro s hp hl
  have ha := State.portAccess_bodyEnd hp hl
  exact ⟨ha, (State.engineStep_of_noAccess ha).trans (State.quietStep_body hp)⟩

/-! ## The tail of VERIFY -/

theorem State.checksumVerdict_eq_decide (s : State) : s.checksumVerdict = decide (s.readck = s.pck) := rfl

theorem Lanes.allZero_eq_decide (ls : Lanes) :
    ls.allZero = decide (ls.l0 = 0 ∧ ls.l1 = 0 ∧ ls.l2 = 0 ∧ ls.l3 = 0) := by
  simp [Lanes.allZero, Bool.and_assoc, beq_eq_decide]

/-- CRCHI's step with the verdicts as the rules say them (43_sequencer.md R199). -/
theorem State.crchiStep_eq (s : State) (w : Word) :
    s.crchiStep w = { s with
      lanes := s.lanes.feed w, count := s.count + 4
      status := { s.status with
        busy := false, done := true, ckOk := decide (s.readck = s.pck)
        crcOk := decide ((s.lanes.feed w).l0 = 0 ∧ (s.lanes.feed w).l1 = 0 ∧ (s.lanes.feed w).l2 = 0
          ∧ (s.lanes.feed w).l3 = 0) }
      phase := .idle } := by
  rw [← s.checksumVerdict_eq_decide, ← Lanes.allZero_eq_decide]
  rfl

/-- Settles O35, phase by phase: the read of the phase, then its step. -/
theorem verifyTailReadsTheTrailer : Obligations.VerifyTailReadsTheTrailer := by
  unfold Obligations.VerifyTailReadsTheTrailer
  refine ⟨fun s hp => ⟨State.portAccess_rdck hp, fun he => ?_⟩,
    fun s hp => ⟨State.portAccess_crclo hp, fun he => ?_⟩,
    fun s hp => ⟨State.portAccess_crchi hp, fun he ls hls => ?_⟩⟩
  · rw [State.engineStep_of_read (State.portAccess_rdck hp) he, State.afterRead_rdck hp]
    rfl
  · rw [State.engineStep_of_read (State.portAccess_crclo hp) he, State.afterRead_crclo hp]
    rfl
  · rw [hls, lanesFed_eq_feed, State.engineStep_of_read (State.portAccess_crchi hp) he,
      State.afterRead_crchi hp, State.crchiStep_eq]

/-! ## The tail of PATCH -/

/-- In a canonical memory a word write leaves every byte outside the word alone. -/
theorem Memory.byteAt_writeWord_of_not_inWord {m : Memory} (h : m.wf = true) (a v : Word) {x : Word}
    (hx : ¬ inWord a x) : (m.writeWord a v).byteAt x = m.byteAt x := by
  simp only [inWord, not_or] at hx
  obtain ⟨h0, h1, h2, h3⟩ := hx
  have hw0 := Memory.wf_write h a (wordByte v 0)
  have hw1 := Memory.wf_write hw0 (a + 1) (wordByte v 1)
  have hw2 := Memory.wf_write hw1 (a + 2) (wordByte v 2)
  rw [Memory.writeWord, Memory.byteAt_write hw2, if_neg h3, Memory.byteAt_write hw1, if_neg h2,
    Memory.byteAt_write hw0, if_neg h1, Memory.byteAt_write h, if_neg h0]

/-- A turn whose access is a write leaves the other bytes alone: it fails and writes nothing, or it writes the
word and nothing more. -/
theorem State.byteAt_engineStep_of_write {s : State} {a v x : Word} (h : s.portAccess = some (.write a v))
    (hm : s.mem.wf = true) (hx : ¬ inWord a x) : s.engineStep.mem.byteAt x = s.mem.byteAt x := by
  cases he : s.memErrAt a .write
  case true => rw [State.engineStep_of_memErr h he, State.memFault_mem]
  case false =>
    rw [State.engineStep_of_write h he]
    exact Memory.byteAt_writeWord_of_not_inWord hm a v hx

/-- Settles O36, phase by phase: the write of the phase, then its step; the frame is
`State.byteAt_engineStep_of_write`. -/
theorem patchTailWritesFourWords : Obligations.PatchTailWritesFourWords := by
  unfold Obligations.PatchTailWritesFourWords
  refine ⟨fun s hp => ⟨State.portAccess_lenw hp, fun he => ?_⟩,
    fun s hp => ⟨State.portAccess_wck hp, fun he => ?_⟩,
    fun s hp => ⟨State.portAccess_wlo hp, fun he => ?_⟩,
    fun s hp => ⟨State.portAccess_whi hp, fun he => ?_⟩,
    fun s a v h => ⟨State.phase_of_portAccess_write h, fun hm x hx => State.byteAt_engineStep_of_write h hm hx⟩⟩
  · rw [State.engineStep_of_write (State.portAccess_lenw hp) he, State.afterWrite_lenw hp]
  · rw [State.engineStep_of_write (State.portAccess_wck hp) he, State.afterWrite_wck hp]
  · rw [State.engineStep_of_write (State.portAccess_wlo hp) he, State.afterWrite_wlo hp]
  · rw [State.engineStep_of_write (State.portAccess_whi hp) he, State.afterWrite_whi hp]
    rfl

/-! ## The abort -/

/-- Under the invariant a state whose turn makes an access has a running sequence. -/
theorem State.Inv.running_of_portAccess {s : State} (hi : s.Inv) {x : Access} (h : s.portAccess = some x) :
    s.Running :=
  hi.running (by simpa [hi.idleIffNotBusy] using State.phase_ne_idle_of_portAccess h)

/-- Settles O37: the turn is `State.memFault`, which keeps the verdicts, and a running sequence has none. -/
theorem memFaultAbortsTheSequence : Obligations.MemFaultAbortsTheSequence := by
  unfold Obligations.MemFaultAbortsTheSequence
  intro s x h he
  rw [State.engineStep_of_memErr h he]
  refine ⟨rfl, fun hi => ?_⟩
  have hrun := hi.running_of_portAccess h
  exact ⟨hrun.noChecksumVerdict, hrun.noCrcVerdict⟩

end Sys2Proof.Machine
end

section
/-! PROOFS. The statements of 60_exceptions.md: the errors of a command write, each by its own cause, and the
order in which they are checked. -/

namespace Sys2Proof.Machine

/-! ## Which words are commands -/

theorem eq_opcode_of_decodeOp {op : BitVec 4} {i : Instr} : decodeOp op = .ok i → op = opcode i := by
  revert op
  cases i <;> decide

theorem seven_le_of_decodeOp_error {op : BitVec 4} {e : DecodeError} :
    decodeOp op = .error e → 7 ≤ op.toNat := by
  revert op
  cases e <;> decide

/-- The decoder rejects a word by its reserved bits, or reads its `OP` (30_encoding.md R103). -/
theorem decode_cases (c : Word) :
    (rsvField c ≠ 0 ∧ decode c = .error .reservedBits) ∨ (rsvField c = 0 ∧ decode c = decodeOp (opField c)) := by
  by_cases hrsv : rsvField c = 0
  · exact .inr ⟨hrsv, if_neg (not_not.mpr hrsv)⟩
  · exact .inl ⟨hrsv, if_pos hrsv⟩

/-- A word whose bits 31:4 are 0 is `OP`, zero-extended (30_encoding.md R102). -/
theorem setWidth_opField {c : Word} (h : rsvField c = 0) : (opField c).setWidth 32 = c := by
  apply BitVec.eq_of_toNat_eq
  have hrsv := congrArg BitVec.toNat h
  simp only [rsvField, opField, BitVec.extractLsb'_toNat, BitVec.toNat_setWidth, Nat.shiftRight_eq_div_pow,
    BitVec.ofNat_eq_ofNat, BitVec.toNat_ofNat] at hrsv ⊢
  omega

theorem eq_encode_of_decode {c : Word} {i : Instr} (h : decode c = .ok i) : c = encode i := by
  rcases decode_cases c with ⟨-, hd⟩ | ⟨hrsv, hd⟩
  · cases hd.symm.trans h
  · rw [encode, ← eq_opcode_of_decodeOp (hd.symm.trans h), setWidth_opField hrsv]

theorem illegalWord_of_decode_error {c : Word} {e : DecodeError} (h : decode c = .error e) : illegalWord c := by
  rcases decode_cases c with ⟨hrsv, -⟩ | ⟨-, hd⟩
  · exact .inl hrsv
  · exact .inr (seven_le_of_decodeOp_error (hd.symm.trans h))

theorem not_illegalWord_encode (i : Instr) : ¬ illegalWord (encode i) := by
  unfold illegalWord
  cases i <;> decide

theorem exists_decode_error_of_illegalWord {c : Word} (h : illegalWord c) : ∃ e, decode c = .error e := by
  cases hd : decode c with
  | error e => exact ⟨e, rfl⟩
  | ok i => exact absurd (eq_encode_of_decode hd ▸ h) (not_illegalWord_encode i)

theorem exists_eq_encode_of_not_illegalWord {c : Word} (h : ¬ illegalWord c) : ∃ i, c = encode i := by
  cases hd : decode c with
  | error e => exact absurd (illegalWord_of_decode_error hd) h
  | ok i => exact ⟨i, eq_encode_of_decode hd⟩

/-! ## ILLEGAL_CMD -/

/-- The host writes an illegal word to CMD while BUSY = 0. -/
theorem step_of_illegalWord {s : State} {c : Word} {rest : List Event} (hb : s.status.busy = false)
    (hc : illegalWord c) (he : s.events = .regWrite (s.regBase + 0x00) 32 c :: rest) :
    step s = .next (State.raiseError { s with events := rest } .illegalCmd) := by
  obtain ⟨e, hd⟩ := exists_decode_error_of_illegalWord hc
  rw [step_regWrite he (r := .cmd) rfl, regWrite, commandWrite, hd]
  exact acceptCommand_idle hb

/-- Settles O13: `step_of_illegalWord`. -/
theorem illegalCommandChangesOnlyErr : Obligations.IllegalCommandChangesOnlyErr := by
  unfold Obligations.IllegalCommandChangesOnlyErr
  exact fun s c rest hb hc he => step_of_illegalWord hb hc he

/-! ## The checks of VERIFY and PATCH -/

/-- The length check in the words of 60_exceptions.md R242. -/
theorem badLength_iff {len minimum : Word} :
    badLength len minimum = true ↔ len.extractLsb' 0 2 ≠ 0 ∨ len.toNat < minimum.toNat := by
  simp [badLength, BitVec.lt_def]

/-- The range check in the words of 60_exceptions.md R243. -/
theorem badRange_iff {base len : Word} : badRange base len = true ↔ base.toNat + len.toNat > 2 ^ 32 := by
  simp [badRange, Config.imageSpaceBytes]

section
variable {s : State} {k : SeqKind} {minimum : Word}

theorem State.requestSequence_of_badLength (hl : s.len.extractLsb' 0 2 ≠ 0 ∨ s.len.toNat < minimum.toNat) :
    s.requestSequence k minimum = s.raiseError .badLength :=
  if_pos (badLength_iff.mpr hl)

variable (hl : ¬ (s.len.extractLsb' 0 2 ≠ 0 ∨ s.len.toNat < minimum.toNat))
include hl

theorem State.requestSequence_of_badRange (hr : s.base.toNat + s.len.toNat > 2 ^ 32) :
    s.requestSequence k minimum = s.raiseError .badRange :=
  (if_neg (mt badLength_iff.mp hl)).trans (if_pos (badRange_iff.mpr hr))

theorem State.requestSequence_of_goodRange (hr : ¬ s.base.toNat + s.len.toNat > 2 ^ 32) :
    s.requestSequence k minimum = s.startSequence k :=
  (if_neg (mt badLength_iff.mp hl)).trans (if_neg (mt badRange_iff.mp hr))

end

section
variable {s : State} {i : Instr} {k : SeqKind} {minimum : Word}
  (hop : operationOf i = fun t => t.requestSequence k minimum) (hb : s.status.busy = false)
include hop hb

/-- A command with a bad length only writes ERR: the decode's write of it moves none of the operands the checks
read, and the error's overwrites it. -/
theorem exec_of_badLength (hl : s.len.extractLsb' 0 2 ≠ 0 ∨ s.len.toNat < minimum.toNat) :
    exec i s = .next (s.raiseError .badLength) := by
  rw [exec_of_idle i hb, hop]
  exact congrArg _ (State.requestSequence_of_badLength (s := s.raiseError .none) hl)

theorem exec_of_badRange (hmul : s.len.extractLsb' 0 2 = 0) (hmin : minimum.toNat ≤ s.len.toNat)
    (hr : s.base.toNat + s.len.toNat > 2 ^ 32) : exec i s = .next (s.raiseError .badRange) := by
  have hl := not_or.mpr ⟨not_not.mpr hmul, Nat.not_lt.mpr hmin⟩
  rw [exec_of_idle i hb, hop]
  exact congrArg _ (State.requestSequence_of_badRange (s := s.raiseError .none) hl hr)

end

/-! ## BAD_LENGTH -/

/-- Settles O22: each command compares LEN with the least length of its own kind (`exec_of_badLength`). -/
theorem badLengthIsRejected : Obligations.BadLengthIsRejected := by
  unfold Obligations.BadLengthIsRejected
  exact fun s hb => ⟨exec_of_badLength (i := .verify) (minimum := Config.minLenVerify) rfl hb,
    exec_of_badLength (i := .patch) (minimum := Config.minLenPatch) rfl hb⟩

/-! ## BAD_RANGE -/

theorem toNat_mod_four_of_lowBits {w : Word} (h : w.extractLsb' 0 2 = 0) : w.toNat % 4 = 0 := by
  simpa using congrArg BitVec.toNat h

/-- An offset into an image that is in range does not wrap (60_exceptions.md R243). -/
theorem State.toNat_imageAddr {s : State} {off : Nat} (hr : s.base.toNat + s.len.toNat ≤ 2 ^ 32)
    (ho : off < s.len.toNat) : (s.imageAddr off).toNat = s.base.toNat + off := by
  rw [State.imageAddr, BitVec.toNat_add, BitVec.toNat_ofNat, Nat.add_mod_mod, Nat.mod_eq_of_lt (by omega)]

/-- Settles O23: past the top `exec_of_badRange`; an image that ends exactly at the top is one that
`State.accepts` allows (`exec_of_accepts`); `State.toNat_imageAddr` for the addresses. -/
theorem badRangeIsRejected : Obligations.BadRangeIsRejected := by
  unfold Obligations.BadRangeIsRejected
  refine ⟨fun s hb hmul hr => ⟨fun hmin => ?_, fun hmin => ?_⟩,
    fun s hb hmul hr => ⟨fun hmin => ?_, fun hmin => ?_⟩, fun s off hr ho => State.toNat_imageAddr hr ho⟩
  · exact exec_of_badRange (i := .verify) (minimum := Config.minLenVerify) rfl hb hmul hmin hr
  · exact exec_of_badRange (i := .patch) (minimum := Config.minLenPatch) rfl hb hmul hmin hr
  · have ha : s.accepts .verify := ⟨hb, toNat_mod_four_of_lowBits hmul, hmin, hr.le⟩
    exact ⟨_, exec_of_accepts (i := .verify) (minimum := Config.minLenVerify) rfl rfl ha, rfl⟩
  · have ha : s.accepts .patch := ⟨hb, toNat_mod_four_of_lowBits hmul, hmin, hr.le⟩
    exact ⟨_, exec_of_accepts (i := .patch) (minimum := Config.minLenPatch) rfl rfl ha, rfl⟩

/-! ## The order of the checks -/

theorem operationOf_err_of_noSequence {i : Instr} (hv : i ≠ .verify) (hp : i ≠ .patch) {s : State}
    (he : s.status.err = .none) : (operationOf i s).status.err = .none := by
  cases i
  case verify => exact absurd rfl hv
  case patch => exact absurd rfl hp
  case clear => rfl
  all_goals exact he

/-- What ERR holds after a requested sequence: the length check comes before the range check, and only the first
that fails is reported. -/
theorem State.requestSequence_err {s : State} (k : SeqKind) {minimum : Word} (he : s.status.err = .none) :
    ((s.len.extractLsb' 0 2 ≠ 0 ∨ s.len.toNat < minimum.toNat) →
        (s.requestSequence k minimum).status.err = .badLength)
      ∧ (¬ (s.len.extractLsb' 0 2 ≠ 0 ∨ s.len.toNat < minimum.toNat) → s.base.toNat + s.len.toNat > 2 ^ 32 →
        (s.requestSequence k minimum).status.err = .badRange)
      ∧ (¬ (s.len.extractLsb' 0 2 ≠ 0 ∨ s.len.toNat < minimum.toNat) ∧ ¬ s.base.toNat + s.len.toNat > 2 ^ 32 →
        (s.requestSequence k minimum).status.err = .none) :=
  ⟨fun hl => by rw [requestSequence_of_badLength hl, raiseError_status],
    fun hl hr => by rw [requestSequence_of_badRange hl hr, raiseError_status],
    fun ⟨hl, hr⟩ => by rw [requestSequence_of_goodRange hl hr]; exact he⟩

theorem State.portAccess_idle {s : State} (hp : s.phase = .idle) : s.portAccess = none := by
  simp only [State.portAccess, hp]

/-- Settles O24. A CMD write is dropped (`step_of_busyWrite`), illegal (`step_of_illegalWord`) or the word of a
command, and of the commands only VERIFY and PATCH have checks of their own (`State.requestSequence_err`). A turn
whose access fails is `State.memFault`, after which PHASE is IDLE. -/
theorem errorPriorityOfACommandWrite : Obligations.ErrorPriorityOfACommandWrite := by
  unfold Obligations.ErrorPriorityOfACommandWrite
  refine ⟨fun s c rest he => ?_, fun s x hx hmem => ?_⟩
  · by_cases hbusy : s.status.busy = true
    · exact ⟨_, step_of_busyWrite hbusy (by simp) he, fun _ => rfl,
        fun hidle => absurd hbusy (Bool.eq_false_iff.mp hidle),
        fun hidle => absurd hbusy (Bool.eq_false_iff.mp hidle)⟩
    have hidle : s.status.busy = false := Bool.eq_false_iff.mpr hbusy
    by_cases hc : illegalWord c
    · exact ⟨_, step_of_illegalWord hidle hc he, (absurd · hbusy), fun _ _ => rfl, fun _ hlegal => absurd hc hlegal⟩
    obtain ⟨i, rfl⟩ := exists_eq_encode_of_not_illegalWord hc
    refine ⟨_, step_command hidle he, (absurd · hbusy), fun _ hillegal => absurd hillegal hc, fun _ _ => ?_⟩
    have herr : (State.raiseError { s with events := rest } .none).status.err = .none := rfl
    cases i
    case verify =>
      obtain ⟨hlen, hrange, hnone⟩ := State.requestSequence_err .verify (minimum := Config.minLenVerify) herr
      exact ⟨fun _ => hlen, fun _ => hrange, fun h => hnone (h.resolve_left (not_not.mpr (.inl rfl)))⟩
    case patch =>
      obtain ⟨hlen, hrange, hnone⟩ := State.requestSequence_err .patch (minimum := Config.minLenPatch) herr
      exact ⟨fun _ => hlen, fun _ => hrange, fun h => hnone (h.resolve_left (not_not.mpr (.inr rfl)))⟩
    all_goals
      exact ⟨fun hsequence => absurd hsequence (by decide), fun hsequence => absurd hsequence (by decide),
        fun _ => operationOf_err_of_noSequence (by decide) (by decide) herr⟩
  · rw [State.engineStep_of_memErr hx hmem]
    exact State.portAccess_idle rfl

end Sys2Proof.Machine
end

section
/-! PROOFS. The statement of 70_reset_and_hazards.md: what a reset does to the engine, and how the machine goes on
from there. -/

namespace Sys2Proof.Machine

theorem step_of_reset {s : State} {rest : List Event} (he : s.events = .reset :: rest) :
    step s = .next (State.applyReset { s with events := rest }) := by
  simp only [step, he, perform]

theorem Status.word_zero : Status.zero.word = 0 := rfl

/-- While PHASE is IDLE no step is enabled (43_sequencer.md R206; 60_exceptions.md R255). -/
theorem State.engineStep_of_idle {s : State} (hp : s.phase = .idle) : s.engineStep = s := by
  rw [State.engineStep_of_noAccess (State.portAccess_idle hp)]
  simp only [State.quietStep, hp]

/-- A reset leaves BUSY at 0 and ERR at NONE, so that the next command is accepted and its decode clears nothing
(30_encoding.md R103; 70_reset_and_hazards.md R280, R283). -/
theorem acceptCommand_applyReset (s : State) (operation : State → State) :
    acceptCommand s.applyReset operation = .next (operation s.applyReset) := by
  have hbusy : s.applyReset.status.busy = false := rfl
  have herr : s.applyReset.raiseError .none = s.applyReset := rfl
  rw [acceptCommand_idle hbusy, herr]

/-- Settles O2. The step is `State.applyReset`, which writes out every field; after it PHASE is IDLE, so the engine
rests (`State.engineStep_of_idle`), and the next command is accepted (`acceptCommand_applyReset`). -/
theorem resetEventRestoresTheEngineOnly : Obligations.ResetEventRestoresTheEngineOnly := by
  unfold Obligations.ResetEventRestoresTheEngineOnly
  intro s rest he
  have hidle := State.applyReset_phase { s with events := rest }
  exact ⟨_, step_of_reset he, rfl, rfl, rfl, rfl, rfl, rfl, rfl, rfl, rfl, rfl, rfl, Status.word_zero, hidle, rfl, rfl,
    rfl, rfl, rfl, rfl, rfl, State.portAccess_idle hidle, State.engineStep_of_idle hidle, acceptCommand_applyReset _⟩

end Sys2Proof.Machine
end

section
/-! PROOFS. The engine's turn of a running sequence, phase by phase (43_sequencer.md R194 to R205), the steps that
leave a running sequence alone, and the invariant of the machine. -/

namespace Sys2Proof.Machine

/-! ## The engine's turn and the events to come -/

theorem State.quietStep_withEvents (s : State) (rest : List Event) :
    State.quietStep { s with events := rest } = { s.quietStep with events := rest } := by
  obtain ⟨_, _, _, _, _, _, _, _, _, _, _, _, phase, _⟩ := s
  cases phase <;> rfl

theorem State.afterRead_withEvents (s : State) (rest : List Event) (w : Word) :
    State.afterRead { s with events := rest } w = { s.afterRead w with events := rest } := by
  obtain ⟨_, _, _, _, _, _, _, _, _, _, _, _, phase, _⟩ := s
  cases phase <;> rfl

theorem State.afterWrite_withEvents (s : State) (rest : List Event) :
    State.afterWrite { s with events := rest } = { s.afterWrite with events := rest } := by
  obtain ⟨_, _, _, _, _, _, _, _, _, _, _, _, phase, _⟩ := s
  cases phase <;> rfl

/-- The engine's turn neither reads nor writes the events to come. -/
theorem State.engineStep_withEvents (s : State) (rest : List Event) :
    State.engineStep { s with events := rest } = { s.engineStep with events := rest } := by
  rcases s.engineStep_cases with ⟨hp, -⟩ | ⟨x, hp, he, -⟩ | ⟨a, hp, he, -⟩ | ⟨a, v, hp, he, -⟩
  · rw [State.engineStep_of_noAccess (s := { s with events := rest }) hp, State.engineStep_of_noAccess hp,
      State.quietStep_withEvents]
  · rw [State.engineStep_of_memErr (s := { s with events := rest }) hp he, State.engineStep_of_memErr hp he]
    rfl
  · rw [State.engineStep_of_read (s := { s with events := rest }) hp he, State.engineStep_of_read hp he,
      State.afterRead_withEvents]
    rfl
  · rw [State.engineStep_of_write (s := { s with events := rest }) hp he, State.engineStep_of_write hp he,
      State.afterWrite_withEvents]

/-- A step that is the engine's turn, with the events it leaves to come. -/
theorem step_eq_engineStep {s t : State} (he : s.engineTurn) (h : step s = .next t) :
    ∃ rest, t = { s.engineStep with events := rest } := by
  obtain ⟨rest, hstep⟩ := step_of_engineTurn he
  cases hstep.symm.trans h
  exact ⟨rest, s.engineStep_withEvents rest⟩

/-! ## The turn of a running sequence -/

/-- The turn of a running sequence, by its phase: `s.Turn t` says that the turn takes `s` to `t`. -/
inductive State.Turn (s : State) : State → Prop
  | fault (x : Access) : s.portAccess = some x → s.memErrAt x.addr x.dir = true → Turn s (s.memFault x.addr)
  | bodyRead : s.phase = .body → s.idx.toNat + 12 < s.len.toNat →
      s.portAccess = some (.read (s.base + s.idx)) → s.memErrAt (s.base + s.idx) .read = false →
      Turn s { s.bodyReadStep (s.mem.readWord (s.base + s.idx)) with mem := s.memAfterRead (s.base + s.idx) 4 }
  | bodyLatch : s.phase = .body → s.idx.toNat + 12 = s.len.toNat → s.portAccess = none → Turn s s.bodyLatchStep
  | rdck : s.phase = .rdck → s.portAccess = some (.read (s.base + s.len - 12)) →
      s.memErrAt (s.base + s.len - 12) .read = false →
      Turn s { s.rdckStep (s.mem.readWord (s.base + s.len - 12)) with mem := s.memAfterRead (s.base + s.len - 12) 4 }
  | crclo : s.phase = .crclo → s.portAccess = some (.read (s.base + s.len - 8)) →
      s.memErrAt (s.base + s.len - 8) .read = false →
      Turn s { s.crcloStep (s.mem.readWord (s.base + s.len - 8)) with mem := s.memAfterRead (s.base + s.len - 8) 4 }
  | crchi : s.phase = .crchi → s.portAccess = some (.read (s.base + s.len - 4)) →
      s.memErrAt (s.base + s.len - 4) .read = false →
      Turn s { s.crchiStep (s.mem.readWord (s.base + s.len - 4)) with mem := s.memAfterRead (s.base + s.len - 4) 4 }
  | lenw : s.phase = .lenw → s.portAccess = some (.write (s.base + 4) s.len) →
      s.memErrAt (s.base + 4) .write = false →
      Turn s { s with mem := s.mem.writeWord (s.base + 4) s.len, phase := .wck }
  | wck : s.phase = .wck → s.portAccess = some (.write (s.base + s.len - 12) s.pck) →
      s.memErrAt (s.base + s.len - 12) .write = false →
      Turn s { s with mem := s.mem.writeWord (s.base + s.len - 12) s.pck, phase := .wlo }
  | wlo : s.phase = .wlo → s.portAccess = some (.write (s.base + s.len - 8) s.plo) →
      s.memErrAt (s.base + s.len - 8) .write = false →
      Turn s { s with mem := s.mem.writeWord (s.base + s.len - 8) s.plo, phase := .whi }
  | whi : s.phase = .whi → s.portAccess = some (.write (s.base + s.len - 4) s.phi) →
      s.memErrAt (s.base + s.len - 4) .write = false →
      Turn s { s.finish with mem := s.mem.writeWord (s.base + s.len - 4) s.phi }

/-- Under the invariant the turn of a running sequence is the step of its phase or the abort. -/
theorem State.Inv.turn {s : State} (hi : s.Inv) (hb : s.status.busy = true) : s.Turn s.engineStep := by
  by_cases hfault : ∃ x, s.portAccess = some x ∧ s.memErrAt x.addr x.dir = true
  · obtain ⟨x, hx, he⟩ := hfault
    rw [State.engineStep_of_memErr hx he]
    exact .fault x hx he
  have hok : ∀ {x}, s.portAccess = some x → s.memErrAt x.addr x.dir = false := fun {x} hx =>
    Bool.eq_false_iff.mpr fun he => hfault ⟨x, hx, he⟩
  cases hp : s.phase
  case idle => simp [hi.idleIffNotBusy.mp hp] at hb
  case body =>
    obtain ⟨-, hle⟩ := (hi.running hb).bodyOffset hp
    rcases Nat.lt_or_eq_of_le hle with hlt | heq
    · have hx := State.portAccess_body hp hlt
      rw [State.engineStep_of_read hx (hok hx), State.afterRead_body hp]
      exact .bodyRead hp hlt hx (hok hx)
    · have hx := State.portAccess_bodyEnd hp heq
      rw [State.engineStep_of_noAccess hx, State.quietStep_body hp]
      exact .bodyLatch hp heq hx
  case rdck =>
    have hx := State.portAccess_rdck hp
    rw [State.engineStep_of_read hx (hok hx), State.afterRead_rdck hp]
    exact .rdck hp hx (hok hx)
  case crclo =>
    have hx := State.portAccess_crclo hp
    rw [State.engineStep_of_read hx (hok hx), State.afterRead_crclo hp]
    exact .crclo hp hx (hok hx)
  case crchi =>
    have hx := State.portAccess_crchi hp
    rw [State.engineStep_of_read hx (hok hx), State.afterRead_crchi hp]
    exact .crchi hp hx (hok hx)
  case lenw =>
    have hx := State.portAccess_lenw hp
    rw [State.engineStep_of_write hx (hok hx), State.afterWrite_lenw hp]
    exact .lenw hp hx (hok hx)
  case wck =>
    have hx := State.portAccess_wck hp
    rw [State.engineStep_of_write hx (hok hx), State.afterWrite_wck hp]
    exact .wck hp hx (hok hx)
  case wlo =>
    have hx := State.portAccess_wlo hp
    rw [State.engineStep_of_write hx (hok hx), State.afterWrite_wlo hp]
    exact .wlo hp hx (hok hx)
  case whi =>
    have hx := State.portAccess_whi hp
    rw [State.engineStep_of_write hx (hok hx), State.afterWrite_whi hp]
    exact .whi hp hx (hok hx)

/-! ## Steps that leave a running sequence alone -/

/-- A step of a running sequence that is neither the engine's turn nor a reset writes OVR of the engine's state, and
otherwise only image memory, the platform's parameters and the model's own fields (20_memory.md R71). -/
theorem step_of_busy_other {s t : State} (hb : s.status.busy = true) (he : ¬ s.engineTurn) (hr : ¬ s.resets)
    (h : step s = .next t) :
    ∃ o m e f ev r, t = { s with
      status := { s.status with ovr := o }, mem := m, memErr := e, readEffects := f, events := ev, reply := r } := by
  rcases step_classes h with ⟨he', -⟩ | ⟨i, rest, ⟨hb', -⟩, -⟩ | ⟨hb', -⟩ | ⟨-, -, rest, ht⟩ | ⟨hr', -⟩
    | ⟨hb', -⟩ | ⟨-, -, -, -, m, e, f, rest, r, ht⟩
  · exact absurd he' he
  · simp [hb] at hb'
  · simp [hb] at hb'
  · exact ⟨_, _, _, _, _, _, ht⟩
  · exact absurd hr' hr
  · simp [hb] at hb'
  · exact ⟨_, _, _, _, _, _, ht⟩

end Sys2Proof.Machine
end

section
/-! PROOFS. The invariant of the machine: every step keeps it (10_state.md R26, R46, R48; 60_exceptions.md R242, R243),
and what it says of the accesses on the memory port (20_memory.md R66). -/

namespace Sys2Proof.Machine

/-! ## What one command does to the whole state -/

/-- An issued command starts a sequence, only writes ERR, or is one of the four that write the datapath. -/
theorem issues_operation_cases {s u : State} {i : Instr} {rest : List Event} (hi : s.issues i)
    (hu : u = State.raiseError { s with events := rest } .none) :
    (∃ k, s.starts k ∧ operationOf i u = u.startSequence k) ∨ (∃ code, operationOf i u = u.raiseError code)
      ∨ i = .clear ∨ i = .feed ∨ i = .feedcrc ∨ i = .latch := by
  have hb : u.status.busy = false := by rw [hu]; exact hi.1
  have hacc : ∀ {k}, u.accepts k → s.accepts k := fun {k} ha => by rw [hu] at ha; exact ha
  cases i
  case nop => exact .inr (.inl ⟨.none, by rw [hu]; rfl⟩)
  case verify =>
    rcases requestSequence_starts_or_error (k := .verify) (minimum := Config.minLenVerify) rfl hb with ⟨ha, h⟩ | h
    · exact .inl ⟨.verify, ⟨hacc ha, .inl ⟨rfl, hi⟩⟩, h⟩
    · exact .inr (.inl h)
  case patch =>
    rcases requestSequence_starts_or_error (k := .patch) (minimum := Config.minLenPatch) rfl hb with ⟨ha, h⟩ | h
    · exact .inl ⟨.patch, ⟨hacc ha, .inr ⟨rfl, hi⟩⟩, h⟩
    · exact .inr (.inl h)
  all_goals simp

theorem operationOf_mem (i : Instr) (s : State) : (operationOf i s).mem = s.mem := by
  have hreq : ∀ k m, (s.requestSequence k m).mem = s.mem := by
    intro k m
    rcases s.requestSequence_cases k m with ⟨-, h⟩ | ⟨-, -, h⟩ | ⟨-, -, h⟩ <;> rw [h] <;> rfl
  cases i
  case verify => exact hreq _ _
  case patch => exact hreq _ _
  all_goals rfl

/-! ## Image memory keeps its canonical form -/

theorem regWrite_mem {r : Reg} {v : Word} {s t : State} (h : regWrite r v s = .next t) : t.mem = s.mem := by
  rcases regWrite_cases h with ⟨-, rfl, -⟩
    | ⟨-, ⟨i, -, -, rfl⟩ | ⟨e, -, -, rfl⟩ | ⟨-, rfl⟩ | ⟨-, rfl⟩ | ⟨-, rfl⟩⟩ | ⟨-, -, -, -, rfl⟩
  · rfl
  · exact operationOf_mem i _
  all_goals rfl

theorem State.waitTurn_mem (s : State) : s.waitTurn.mem = s.mem := by
  unfold State.waitTurn
  split <;> rfl

theorem step_wf {s t : State} (hm : s.mem.wf = true) (h : step s = .next t) : t.mem.wf = true := by
  rcases step_cases h with ⟨-, rfl⟩ | ⟨e, rest, s0, -, rfl, hh⟩
  · exact State.engineStep_wf hm
  rcases hh with ⟨a, w, r, -, -, -, -, rfl⟩ | ⟨a, w, v, r, -, -, -, -, hw⟩ | ⟨a, n, -, rfl⟩ | ⟨cells, -, rfl⟩
    | ⟨-, rfl⟩ | ⟨-, rfl⟩ | ⟨-, rfl⟩ | ⟨g, -, rfl⟩ | ⟨g, -, rfl⟩
  · exact hm
  · rw [regWrite_mem hw]; exact hm
  · exact Memory.wf_writeCells hm _
  · exact Memory.wf_writeCells hm _
  · rw [State.waitTurn_mem]; exact hm
  · exact State.engineStep_wf (s := { s with events := rest }) hm
  all_goals exact hm

/-! ## `BASE` stays aligned -/

theorem step_baseAligned {s t : State} (hs : s.base.toNat % 4 = 0) (h : step s = .next t) :
    t.base.toNat % 4 = 0 := by
  rcases step_base_cases h with hb | ⟨v, hb⟩ | hb <;> rw [hb]
  · exact hs
  · exact toNat_mod_four_of_lowBits (baseStored_lowBits v)
  · rfl

/-! ## The invariant, by what a step leaves -/

/-- A state with no running sequence has the invariant when its memory, BASE, PHASE and verdicts do. -/
theorem State.Inv.of_notBusy {t : State} (hm : t.mem.wf = true) (ha : t.base.toNat % 4 = 0) (hp : t.phase = .idle)
    (hb : t.status.busy = false)
    (hv : t.status.ckOk = true ∨ t.status.crcOk = true → t.status.last = .verify ∧ t.status.done = true) :
    t.Inv where
  memory := hm
  baseAligned := ha
  idleIffNotBusy := by simp [hp, hb]
  running hb' := by simp [hb] at hb'
  verdicts := hv

/-- What holds while a sequence runs does not depend on OVR, and of the phase only on the facts named. -/
theorem State.Running.of_status_eq {s t : State} (h : s.Running) {o : Bool}
    (hst : t.status = { s.status with ovr := o }) (hlen : t.len = s.len) (hbase : t.base = s.base)
    (hverify : t.phase = .rdck ∨ t.phase = .crclo ∨ t.phase = .crchi → s.status.last = .verify)
    (hpatch : t.phase = .lenw ∨ t.phase = .wck ∨ t.phase = .wlo ∨ t.phase = .whi → s.status.last = .patch)
    (hbody : t.phase = .body → t.idx.toNat % 4 = 0 ∧ t.idx.toNat + 12 ≤ s.len.toNat ∧ t.count = t.idx) :
    t.Running where
  noError := by rw [hst]; exact h.noError
  notDone := by rw [hst]; exact h.notDone
  noChecksumVerdict := by rw [hst]; exact h.noChecksumVerdict
  noCrcVerdict := by rw [hst]; exact h.noCrcVerdict
  kind := by rw [hst]; exact h.kind
  lengthMultiple := by rw [hlen]; exact h.lengthMultiple
  lengthMinimum := by rw [hst, hlen]; exact h.lengthMinimum
  range := by rw [hbase, hlen]; exact h.range
  verifyPhase hp := by rw [hst]; exact hverify hp
  patchPhase hp := by rw [hst]; exact hpatch hp
  bodyOffset hp := by rw [hlen]; exact ⟨(hbody hp).1, (hbody hp).2.1⟩
  bodyCount hp := (hbody hp).2.2

/-- The invariant does not depend on OVR, the contents of memory, the platform's parameters and the model's own
fields. -/
theorem State.Inv.withPlatform {s : State} (hi : s.Inv) (o : Bool) {m : Memory} (hm : m.wf = true)
    (e : List ErrRegion) (f : List ReadEffect) (ev : List Event) (r : Reply) :
    State.Inv { s with
      status := { s.status with ovr := o }, mem := m, memErr := e, readEffects := f, events := ev, reply := r } where
  memory := hm
  baseAligned := hi.baseAligned
  idleIffNotBusy := hi.idleIffNotBusy
  running hb :=
    have hrun := hi.running hb
    hrun.of_status_eq rfl rfl rfl hrun.verifyPhase hrun.patchPhase fun hp =>
      ⟨(hrun.bodyOffset hp).1, (hrun.bodyOffset hp).2, hrun.bodyCount hp⟩
  verdicts := hi.verdicts

theorem State.Inv.withEvents {s : State} (hi : s.Inv) (rest : List Event) : State.Inv { s with events := rest } :=
  hi.withPlatform s.status.ovr hi.memory s.memErr s.readEffects rest s.reply

/-! ## The engine's turn keeps the invariant -/

theorem State.Running.last_eq_patch {s : State} (h : s.Running) (hk : s.status.last ≠ .verify) :
    s.status.last = .patch := by
  have hkind := h.kind
  cases hl : s.status.last
  case none => exact absurd hl hkind
  case verify => exact absurd hl hk
  case patch => rfl

/-- A turn that does not end its sequence keeps the invariant when what it leaves is a running sequence. -/
theorem State.Inv.of_running {s t : State} (hi : s.Inv) (hb : s.status.busy = true) (hm : t.mem.wf = true)
    (hbase : t.base = s.base) (hst : t.status = s.status) (hp : t.phase ≠ .idle) (hrun : t.Running) : t.Inv where
  memory := hm
  baseAligned := by rw [hbase]; exact hi.baseAligned
  idleIffNotBusy := by simp [hst, hb, hp]
  running _ := hrun
  verdicts := by rw [hst]; exact hi.verdicts

theorem State.Turn.inv {s t : State} (ht : s.Turn t) (hi : s.Inv) (hb : s.status.busy = true)
    (hm : t.mem.wf = true) : t.Inv := by
  have hrun := hi.running hb
  cases ht with
  | fault x hx he =>
    exact .of_notBusy hm hi.baseAligned rfl rfl (by simp [hrun.noChecksumVerdict, hrun.noCrcVerdict])
  | bodyRead hp hlt hx he =>
    obtain ⟨hmul, -⟩ := hrun.bodyOffset hp
    have hlen := hrun.lengthMultiple
    refine .of_running hi hb hm rfl rfl (by simp [hp]) (hrun.of_status_eq rfl rfl rfl (by simp [hp]) (by simp [hp]) ?_)
    intro _
    have hidx : (s.idx + 4).toNat = s.idx.toNat + 4 := by bv_omega
    exact ⟨by simp only [State.bodyReadStep_idx, hidx]; omega, by simp only [State.bodyReadStep_idx, hidx]; omega,
      congrArg (· + 4) (hrun.bodyCount hp)⟩
  | bodyLatch hp heq hx =>
    by_cases hk : s.status.last = .verify
    · exact .of_running hi hb hm rfl rfl (by simp [hk])
        (hrun.of_status_eq rfl rfl rfl (fun _ => hk) (by simp [hk]) (by simp [hk]))
    · have hk' := hrun.last_eq_patch hk
      exact .of_running hi hb hm rfl rfl (by simp [hk])
        (hrun.of_status_eq rfl rfl rfl (by simp [hk]) (fun _ => hk') (by simp [hk]))
  | rdck hp _ _ =>
    exact .of_running hi hb hm rfl rfl (by simp)
      (hrun.of_status_eq rfl rfl rfl (fun _ => hrun.verifyPhase (.inl hp)) (by simp) (by simp))
  | crclo hp _ _ =>
    exact .of_running hi hb hm rfl rfl (by simp)
      (hrun.of_status_eq rfl rfl rfl (fun _ => hrun.verifyPhase (.inr (.inl hp))) (by simp) (by simp))
  | crchi hp _ _ =>
    exact .of_notBusy hm hi.baseAligned rfl rfl fun _ => ⟨hrun.verifyPhase (.inr (.inr hp)), rfl⟩
  | lenw hp _ _ =>
    exact .of_running hi hb hm rfl rfl (by simp)
      (hrun.of_status_eq rfl rfl rfl (by simp) (fun _ => hrun.patchPhase (.inl hp)) (by simp))
  | wck hp _ _ =>
    exact .of_running hi hb hm rfl rfl (by simp)
      (hrun.of_status_eq rfl rfl rfl (by simp) (fun _ => hrun.patchPhase (.inr (.inl hp))) (by simp))
  | wlo hp _ _ =>
    exact .of_running hi hb hm rfl rfl (by simp)
      (hrun.of_status_eq rfl rfl rfl (by simp) (fun _ => hrun.patchPhase (.inr (.inr (.inl hp)))) (by simp))
  | whi hp _ _ =>
    exact .of_notBusy hm hi.baseAligned rfl rfl (by simp [hrun.noChecksumVerdict, hrun.noCrcVerdict])

theorem State.Inv.phase_idle {s : State} (hi : s.Inv) (hb : s.status.busy = false) : s.phase = .idle :=
  hi.idleIffNotBusy.mpr hb

theorem State.Inv.engineStep {s : State} (hi : s.Inv) : s.engineStep.Inv := by
  cases hb : s.status.busy
  · rw [State.engineStep_of_idle (hi.phase_idle hb)]
    exact hi
  · exact (hi.turn hb).inv hi hb (State.engineStep_wf hi.memory)

/-! ## Every step keeps the invariant -/

/-- The start of an accepted sequence has the invariant (43_sequencer.md R193). -/
theorem State.Inv.startSequence {s : State} {k : SeqKind} (hi : s.Inv) (hk : k = .verify ∨ k = .patch)
    (ha : s.accepts k) : ((s.raiseError .none).startSequence k).Inv := by
  obtain ⟨-, hmul, hmin, hrange⟩ := ha
  have hmin' : 12 ≤ s.len.toNat := by
    rcases hk with rfl | rfl <;> simp only [SeqKind.minLen] at hmin <;> omega
  refine ⟨hi.memory, hi.baseAligned, by simp, fun _ => ?_, by simp⟩
  refine ⟨rfl, rfl, rfl, rfl, ?_, hmul, hmin, hrange, by simp, by simp, fun _ => ⟨rfl, by simpa using hmin'⟩,
    fun _ => rfl⟩
  rcases hk with rfl | rfl <;> simp

/-- Settles O40, by the classes of steps: the turn of a running sequence is `State.Turn.inv`, an accepted one starts
with the invariant, and every other step leaves no sequence running or does not touch what the invariant says. -/
theorem everyStepKeepsTheInvariant : Obligations.EveryStepKeepsTheInvariant := by
  unfold Obligations.EveryStepKeepsTheInvariant
  intro s t hi h
  have hm := step_wf hi.memory h
  have ha := step_baseAligned hi.baseAligned h
  rcases step_classes h with ⟨he, -⟩ | ⟨i, rest, his, ht⟩ | ⟨hb, -, rest, ht⟩ | ⟨-, -, rest, ht⟩ | ⟨-, rest, ht⟩
    | ⟨hb, -, rest, d, b, l, ht⟩ | ⟨-, -, -, -, m, e, f, rest, r, ht⟩
  · obtain ⟨rest, rfl⟩ := step_eq_engineStep he h
    exact hi.engineStep.withEvents rest
  · have hb := his.1
    have hp := hi.phase_idle hb
    rcases issues_operation_cases his rfl with ⟨k, hs, hop⟩ | ⟨code, hop⟩ | rfl | rfl | rfl | rfl
    · rw [ht, hop]
      exact (hi.withEvents rest).startSequence (hs.2.imp And.left And.left) hs.1
    · rw [hop] at ht
      subst ht
      exact .of_notBusy hm ha hp hb hi.verdicts
    · subst ht
      exact .of_notBusy hm ha hp hb (by simp [operationOf])
    all_goals
      subst ht
      exact .of_notBusy hm ha hp hb hi.verdicts
  · subst ht
    exact .of_notBusy hm ha (hi.phase_idle hb) hb hi.verdicts
  · subst ht
    exact hi.withPlatform true hi.memory s.memErr s.readEffects rest s.reply
  · subst ht
    exact .of_notBusy hm ha rfl rfl (by simp)
  · subst ht
    exact .of_notBusy hm ha (hi.phase_idle hb) hb hi.verdicts
  · subst ht
    exact hi.withPlatform s.status.ovr hm e f rest r

theorem State.Inv.step {s t : State} (hi : s.Inv) (h : step s = .next t) : t.Inv :=
  everyStepKeepsTheInvariant s t hi h

/-- Settles O39, by evaluating the reset state. -/
theorem resetHasTheInvariant : Obligations.ResetHasTheInvariant :=
  State.Inv.of_notBusy rfl rfl rfl rfl (by simp [State.reset])

/-- Settles O38: under the invariant PHASE is IDLE while BUSY = 0, and there the engine rests. -/
theorem noAccessWhileNotBusy : Obligations.NoAccessWhileNotBusy := by
  unfold Obligations.NoAccessWhileNotBusy
  intro s hi hb
  have hp := hi.phase_idle hb
  exact ⟨State.portAccess_idle hp, State.engineStep_of_idle hp⟩

end Sys2Proof.Machine
end

section
/-! PROOFS. The statements of 20_memory.md: a word written, the place of each access on the port, who changes image
memory, and the platform's effects of reading. -/

namespace Sys2Proof.Machine

/-! ## The word that starts at an address -/

theorem inWord_iff {a x : Word} : inWord a x ↔ ∃ i < 4, x = a + BitVec.ofNat 32 i := by
  constructor
  · rintro (rfl | rfl | rfl | rfl)
    exacts [⟨0, by simp⟩, ⟨1, by simp⟩, ⟨2, by simp⟩, ⟨3, by simp⟩]
  · rintro ⟨i, hi, rfl⟩
    interval_cases i <;> simp [inWord]

/-- In a canonical memory byte `i` of a written word reads as byte `i` of its value. -/
theorem Memory.byteAt_writeWord {m : Memory} (h : m.wf = true) (a v : Word) {i : Nat} (hi : i < 4) :
    (m.writeWord a v).byteAt (a + BitVec.ofNat 32 i) = wordByte v i := by
  have hw0 := Memory.wf_write h a (wordByte v 0)
  have hw1 := Memory.wf_write hw0 (a + 1) (wordByte v 1)
  have hw2 := Memory.wf_write hw1 (a + 2) (wordByte v 2)
  rw [Memory.writeWord, Memory.byteAt_write hw2, Memory.byteAt_write hw1, Memory.byteAt_write hw0,
    Memory.byteAt_write h]
  interval_cases i <;> simp

/-- A word is the value read from four bytes that are its own. -/
theorem Memory.readWord_eq_of_bytes {m : Memory} {a v : Word}
    (h : ∀ i < 4, m.byteAt (a + BitVec.ofNat 32 i) = wordByte v i) : m.readWord a = v := by
  have hbyte : ∀ i < 4, wordByte (m.readWord a) i = wordByte v i := fun i hi =>
    (m.wordByte_readWord a hi).trans (h i hi)
  have hdigit : ∀ i < 4, (m.readWord a).toNat / 2 ^ (8 * i) % 2 ^ 8 = v.toNat / 2 ^ (8 * i) % 2 ^ 8 := fun i hi => by
    rw [← wordByte_toNat, ← wordByte_toNat, hbyte i hi]
  have h0 := hdigit 0 (by decide)
  have h1 := hdigit 1 (by decide)
  have h2 := hdigit 2 (by decide)
  have h3 := hdigit 3 (by decide)
  apply BitVec.eq_of_toNat_eq
  omega

theorem Memory.readWord_congr {m n : Memory} {a : Word}
    (h : ∀ i < 4, m.byteAt (a + BitVec.ofNat 32 i) = n.byteAt (a + BitVec.ofNat 32 i)) : m.readWord a = n.readWord a :=
  Memory.readWord_eq_of_bytes fun i hi => (h i hi).trans (n.wordByte_readWord a hi).symm

theorem Memory.readWord_writeWord {m : Memory} (h : m.wf = true) (a v : Word) : (m.writeWord a v).readWord a = v :=
  Memory.readWord_eq_of_bytes fun _ hi => Memory.byteAt_writeWord h a v hi

/-- Settles O32: `Memory.byteAt_writeWord` for the four bytes, `Memory.readWord_writeWord` for reading back. -/
theorem wordWriteIsLittleEndian : Obligations.WordWriteIsLittleEndian := by
  unfold Obligations.WordWriteIsLittleEndian
  intro m a v h
  have hbyte := fun i (hi : i < 4) => Memory.byteAt_writeWord h a v hi
  refine ⟨?_, hbyte 1 (by decide), hbyte 2 (by decide), hbyte 3 (by decide),
    fun x hx => Memory.byteAt_writeWord_of_not_inWord h a v hx, Memory.readWord_writeWord h a v⟩
  simpa [wordByte] using hbyte 0 (by decide)

/-! ## Addresses of the image -/

theorem State.imageAddr_add (s : State) (off i : Nat) :
    s.imageAddr off + BitVec.ofNat 32 i = s.imageAddr (off + i) := by
  simp only [State.imageAddr, BitVec.ofNat_add, BitVec.add_assoc]

/-- The address `c` bytes before the image's end is an offset into the image (20_memory.md R69). -/
theorem State.fromEnd_eq_imageAddr {s : State} {c : Word} (hc : c.toNat ≤ s.len.toNat) :
    s.base + s.len - c = s.imageAddr (s.len.toNat - c.toNat) := by
  apply BitVec.eq_of_toNat_eq
  have hlen := s.len.isLt
  simp only [State.imageAddr, BitVec.toNat_sub, BitVec.toNat_add, BitVec.toNat_ofNat]
  omega

theorem State.base_add_eq_imageAddr (s : State) (w : Word) : s.base + w = s.imageAddr w.toNat := by
  rw [State.imageAddr, BitVec.ofNat_toNat, BitVec.setWidth_eq]

theorem State.inImage_imageAddr {s : State} {off : Nat} (hr : s.base.toNat + s.len.toNat ≤ 2 ^ 32)
    (ho : off < s.len.toNat) : s.inImage (s.imageAddr off) := by
  rw [State.inImage, State.toNat_imageAddr hr ho]
  omega

theorem State.exists_imageAddr_of_inImage {s : State} {a : Word} (h : s.inImage a) :
    ∃ off < s.len.toNat, a = s.imageAddr off := by
  obtain ⟨hlo, hhi⟩ := h
  refine ⟨a.toNat - s.base.toNat, by omega, BitVec.eq_of_toNat_eq ?_⟩
  rw [State.imageAddr, BitVec.toNat_add, BitVec.toNat_ofNat]
  omega

/-- The word at a word-sized place of the image covers exactly four offsets of it. -/
theorem State.exists_offset_of_inWord {s : State} {off : Nat} {x : Word} (hx : inWord (s.imageAddr off) x) :
    ∃ i < 4, x = s.imageAddr (off + i) := by
  obtain ⟨i, hi, rfl⟩ := inWord_iff.mp hx
  exact ⟨i, hi, s.imageAddr_add off i⟩

/-! ## The accesses on the port -/

theorem State.Running.twelve_le_len {s : State} (h : s.Running) : 12 ≤ s.len.toNat := by
  have hkind := h.kind
  have hmin := h.lengthMinimum
  cases hk : s.status.last <;> simp [hk, SeqKind.minLen] at hkind hmin <;> omega

theorem State.Running.twenty_le_len {s : State} (h : s.Running) (hk : s.status.last = .patch) :
    20 ≤ s.len.toNat := by
  have hmin := h.lengthMinimum
  rwa [hk] at hmin

/-- Every access is a whole word at a multiple of 4 into the image; a write is PATCH's, in the length field or in the
trailer (20_memory.md R66; 43_sequencer.md R194 to R203). -/
theorem State.Inv.portAccess_offset {s : State} (hi : s.Inv) {x : Access} (hx : s.portAccess = some x) :
    ∃ off, x.addr = s.imageAddr off ∧ off % 4 = 0 ∧ off + 4 ≤ s.len.toNat
      ∧ (x.dir = .write → s.status.last = .patch ∧ (off = 4 ∨ s.len.toNat ≤ off + 12)) := by
  have hrun := hi.running_of_portAccess hx
  have hmul := hrun.lengthMultiple
  have hmin := hrun.twelve_le_len
  have trailer : ∀ c : Word, c.toNat ≤ 12 → c.toNat % 4 = 0 → 4 ≤ c.toNat →
      s.base + s.len - c = s.imageAddr (s.len.toNat - c.toNat) ∧ (s.len.toNat - c.toNat) % 4 = 0
        ∧ s.len.toNat - c.toNat + 4 ≤ s.len.toNat ∧ s.len.toNat ≤ s.len.toNat - c.toNat + 12 := fun c hle hc hge =>
    ⟨State.fromEnd_eq_imageAddr (by omega), by omega, by omega, by omega⟩
  obtain ⟨a12, b12, c12, d12⟩ := trailer 12 (by decide) (by decide) (by decide)
  obtain ⟨a8, b8, c8, d8⟩ := trailer 8 (by decide) (by decide) (by decide)
  obtain ⟨a4, b4, c4, d4⟩ := trailer 4 (by decide) (by decide) (by decide)
  cases hp : s.phase
  case idle => simp [State.portAccess_idle hp] at hx
  case body =>
    obtain ⟨hidx, hle⟩ := hrun.bodyOffset hp
    rcases Nat.lt_or_eq_of_le hle with hlt | heq
    · cases (State.portAccess_body hp hlt).symm.trans hx
      exact ⟨_, s.base_add_eq_imageAddr s.idx, hidx, by omega, by simp [Access.dir]⟩
    · simp [State.portAccess_bodyEnd hp heq] at hx
  case rdck =>
    cases (State.portAccess_rdck hp).symm.trans hx
    exact ⟨_, a12, b12, c12, by simp [Access.dir]⟩
  case crclo =>
    cases (State.portAccess_crclo hp).symm.trans hx
    exact ⟨_, a8, b8, c8, by simp [Access.dir]⟩
  case crchi =>
    cases (State.portAccess_crchi hp).symm.trans hx
    exact ⟨_, a4, b4, c4, by simp [Access.dir]⟩
  case lenw =>
    have hk := hrun.patchPhase (.inl hp)
    have hlen := hrun.twenty_le_len hk
    cases (State.portAccess_lenw hp).symm.trans hx
    exact ⟨_, s.base_add_eq_imageAddr 4, rfl, by simp; omega, fun _ => ⟨hk, .inl rfl⟩⟩
  case wck =>
    cases (State.portAccess_wck hp).symm.trans hx
    exact ⟨_, a12, b12, c12, fun _ => ⟨hrun.patchPhase (.inr (.inl hp)), .inr d12⟩⟩
  case wlo =>
    cases (State.portAccess_wlo hp).symm.trans hx
    exact ⟨_, a8, b8, c8, fun _ => ⟨hrun.patchPhase (.inr (.inr (.inl hp))), .inr d8⟩⟩
  case whi =>
    cases (State.portAccess_whi hp).symm.trans hx
    exact ⟨_, a4, b4, c4, fun _ => ⟨hrun.patchPhase (.inr (.inr (.inr hp))), .inr d4⟩⟩

/-- Settles O41: an access is at an aligned offset (`State.Inv.portAccess_offset`) from an aligned BASE, and offsets
into an image in range do not wrap. -/
theorem portAccessesAreAlignedInsideTheImage : Obligations.PortAccessesAreAlignedInsideTheImage := by
  unfold Obligations.PortAccessesAreAlignedInsideTheImage
  intro s x hi hx
  obtain ⟨off, haddr, hmul, hle, -⟩ := hi.portAccess_offset hx
  have hrange := (hi.running_of_portAccess hx).range
  have hbase := hi.baseAligned
  rw [haddr, State.toNat_imageAddr hrange (by omega)]
  omega

/-! ## Who changes image memory -/

/-- What the engine's turn does to image memory: nothing, the platform's effect of its read, or its write. -/
theorem State.engineStep_mem_cases (s : State) :
    s.engineStep.mem = s.mem
      ∨ (∃ a, s.portAccess = some (.read a) ∧ s.memErrAt a .read = false ∧ s.engineStep.mem = s.memAfterRead a 4)
      ∨ (∃ a v, s.portAccess = some (.write a v) ∧ s.engineStep.mem = s.mem.writeWord a v) := by
  rcases s.engineStep_cases with ⟨-, h⟩ | ⟨x, -, -, h⟩ | ⟨a, hp, he, -⟩ | ⟨a, v, hp, he, -⟩
  · obtain ⟨-, -, -, -, -, -, -, hmem⟩ := s.quietStep_frame
    exact .inl (h ▸ hmem)
  · exact .inl (h ▸ rfl)
  · exact .inr (.inl ⟨a, hp, he, by rw [State.engineStep_of_read hp he]⟩)
  · exact .inr (.inr ⟨a, v, hp, by rw [State.engineStep_of_write hp he]⟩)

theorem Memory.exists_cell_of_byteAt_writeCells_ne {m : Memory} (h : m.wf = true) {cells : List (Word × Byte)} {x : Word}
    (hx : Memory.byteAt (m.writeCells cells) x ≠ m.byteAt x) : ∃ c ∈ cells, c.1 = x := by
  by_contra hno
  exact hx (Memory.byteAt_writeCells_other h cells x fun c hc hcx => hno ⟨c, hc, hcx⟩)

/-- What a step changes in image memory an agent outside the engine writes, the platform makes of a read, or the
engine writes on its port. -/
theorem step_byteAt_cases {s t : State} {x : Word} (hm : s.mem.wf = true) (h : step s = .next t)
    (hx : t.mem.byteAt x ≠ s.mem.byteAt x) :
    (∃ cells rest, s.events = .memWrite cells :: rest ∧ ∃ c ∈ cells, c.1 = x)
    ∨ (∃ a n, ((s.engineTurn ∧ s.portAccess = some (.read a) ∧ s.memErrAt a .read = false ∧ n = 4)
          ∨ ∃ rest, s.events = .memRead a n :: rest)
        ∧ ∃ c ∈ s.readCells a n, c.1 = x)
    ∨ (s.engineTurn ∧ ∃ a v, s.portAccess = some (.write a v) ∧ inWord a x) := by
  have turn : s.engineTurn → t.mem = s.engineStep.mem → (∃ a n, ((s.engineTurn ∧ s.portAccess = some (.read a)
        ∧ s.memErrAt a .read = false ∧ n = 4) ∨ ∃ rest, s.events = .memRead a n :: rest)
        ∧ ∃ c ∈ s.readCells a n, c.1 = x)
      ∨ (s.engineTurn ∧ ∃ a v, s.portAccess = some (.write a v) ∧ inWord a x) := by
    intro he hmem
    rw [hmem] at hx
    rcases s.engineStep_mem_cases with h' | ⟨a, hp, hok, h'⟩ | ⟨a, v, hp, h'⟩ <;> rw [h'] at hx
    · exact absurd rfl hx
    · exact .inl ⟨a, 4, .inl ⟨he, hp, hok, rfl⟩, Memory.exists_cell_of_byteAt_writeCells_ne hm hx⟩
    · refine .inr ⟨he, a, v, hp, ?_⟩
      by_contra hno
      exact hx (Memory.byteAt_writeWord_of_not_inWord hm a v hno)
  rcases step_cases h with ⟨he, rfl⟩ | ⟨e, rest, s0, he, rfl, hh⟩
  · exact .inr (turn (.inl he) rfl)
  rcases hh with ⟨a, w, r, -, -, -, -, rfl⟩ | ⟨a, w, v, r, -, -, -, -, hw⟩ | ⟨a, n, rfl, rfl⟩ | ⟨cells, rfl, rfl⟩
    | ⟨-, rfl⟩ | ⟨rfl, rfl⟩ | ⟨-, rfl⟩ | ⟨g, -, rfl⟩ | ⟨g, -, rfl⟩
  · exact absurd rfl hx
  · rw [regWrite_mem hw] at hx
    exact absurd rfl hx
  · exact .inr (.inl ⟨a, n, .inr ⟨rest, he⟩, Memory.exists_cell_of_byteAt_writeCells_ne hm hx⟩)
  · exact .inl ⟨cells, rest, he, Memory.exists_cell_of_byteAt_writeCells_ne hm hx⟩
  · rw [State.waitTurn_mem] at hx
    exact absurd rfl hx
  · exact .inr (turn (.inr ⟨rest, he⟩) (by rw [State.engineStep_withEvents]))
  all_goals exact absurd rfl hx

/-- Settles O42: the cases of `step_byteAt_cases`; the engine's write lies in the length field or the trailer
(`State.Inv.portAccess_offset`). -/
theorem memoryChangesOnlyByTheHostOrPatch : Obligations.MemoryChangesOnlyByTheHostOrPatch := by
  unfold Obligations.MemoryChangesOnlyByTheHostOrPatch
  intro s t x hi h hx
  rcases step_byteAt_cases hi.memory h hx with hhost | hread | ⟨he, a, v, hp, hw⟩
  · exact .inl hhost
  · exact .inr (.inl hread)
  · obtain ⟨off, haddr, -, hle, hwrite⟩ := hi.portAccess_offset hp
    obtain ⟨hk, hplace⟩ := hwrite rfl
    have hrange := (hi.running_of_portAccess hp).range
    have hb : s.status.busy = true := by simpa [hi.idleIffNotBusy] using State.phase_ne_idle_of_portAccess hp
    simp only [Access.addr] at haddr
    subst haddr
    obtain ⟨i, hi4, hxi⟩ := State.exists_offset_of_inWord hw
    have himg : s.inImage x := hxi ▸ State.inImage_imageAddr hrange (by omega)
    refine .inr (.inr ⟨he, hb, hk, himg, ?_⟩)
    rcases hplace with rfl | htrailer
    · exact .inl hw
    · rw [hxi, State.toNat_imageAddr hrange (by omega)]
      exact .inr (by omega)

/-! ## The platform's effects of reading -/

theorem State.readCells_cons {s : State} {e : ReadEffect} {es : List ReadEffect} (h : s.readEffects = e :: es)
    (a : Word) (n : Nat) : s.readCells a n
      = (if readMeets e a n then e.cells else []) ++ State.readCells { s with readEffects := es } a n := by
  simp only [State.readCells, h]
  cases hmeets : readMeets e a n <;> simp [hmeets]

/-- Settles O60: an effect is listed once where the read meets it (`State.readCells_cons`), and only a turn whose read
is made leaves `State.memAfterRead`. -/
theorem readHasThePlatformsEffectOnce : Obligations.ReadHasThePlatformsEffectOnce := by
  unfold Obligations.ReadHasThePlatformsEffectOnce
  intro s
  refine ⟨fun a n h => by simp [State.readCells, h], fun a n e es h => ⟨fun hmeets => ?_, fun hno => ?_⟩,
    fun a hm hp he x => ?_, fun x hp he => ?_, fun hp => ?_, s.engineStep_readEffects⟩
  · rw [State.readCells_cons h, if_pos ((readMeets_iff e a n).mpr hmeets)]
  · have hmeets : ¬ readMeets e a n = true := fun hm => by
      obtain ⟨i, hi, hin⟩ := (readMeets_iff e a n).mp hm
      exact hno i hi hin
    rw [State.readCells_cons h, if_neg hmeets, List.nil_append]
  · rw [State.engineStep_of_read hp he]
    exact State.byteAt_memAfterRead hm a 4 x
  · rw [State.engineStep_of_memErr hp he, State.memFault_mem]
  · obtain ⟨-, -, -, -, -, -, -, hmem⟩ := s.quietStep_frame
    rw [State.engineStep_of_noAccess hp, hmem]

end Sys2Proof.Machine
end

section
/-! PROOFS. The statements of 10_state.md about who writes the verdicts, ERR and the reported registers. -/

namespace Sys2Proof.Machine

/-! ## The verdicts -/

theorem Lanes.allZero_eq_decide_eq (ls : Lanes) : ls.allZero = decide (ls = ⟨0, 0, 0, 0⟩) := by
  obtain ⟨l0, l1, l2, l3⟩ := ls
  simp [Lanes.allZero_eq_decide]

/-- A turn that changes a verdict is the CRCHI step of a VERIFY, and writes both as the comparisons they are. -/
theorem State.Turn.verdicts {s t : State} (ht : s.Turn t) (hi : s.Inv) (hb : s.status.busy = true)
    (hne : t.status.ckOk ≠ s.status.ckOk ∨ t.status.crcOk ≠ s.status.crcOk) :
    s.phase = .crchi ∧ s.status.last = .verify ∧ s.memErrAt (s.base + s.len - 4) .read = false
      ∧ t.status.ckOk = decide (s.readck = s.pck) ∧ t.status.crcOk = decide (t.lanes = ⟨0, 0, 0, 0⟩) := by
  cases ht with
  | crchi hp _ he =>
    exact ⟨hp, (hi.running hb).verifyPhase (.inr (.inr hp)), he, s.checksumVerdict_eq_decide,
      Lanes.allZero_eq_decide_eq _⟩
  | _ => exact absurd hne (by simp)

/-- Settles O45, by the causes of `StatusStep`: of the turns only CRCHI's changes a verdict. -/
theorem verdictsAreWrittenByTheLastVerifyStep : Obligations.VerdictsAreWrittenByTheLastVerifyStep := by
  unfold Obligations.VerdictsAreWrittenByTheLastVerifyStep
  intro s t hi h hne
  cases statusStep_of_step h with
  | ends he hends =>
    have hb : s.status.busy = true := by simpa [hi.idleIffNotBusy] using hends.phase_ne_idle
    obtain ⟨rest, rfl⟩ := step_eq_engineStep he h
    exact .inl ⟨he, (hi.turn hb).verdicts hi hb hne⟩
  | starts k hs hst => exact .inr (by simp [hst, Status.started, (State.starts_verify_or_patch hs).imp_right Or.inl])
  | clears hi' hst => exact .inr (by simp [hst, hi'])
  | resets hr hst => exact .inr (by simp [hst, hr])
  | drops _ _ hst => exact absurd hne (by simp [hst])
  | errOnly _ hst => exact absurd hne (by simp [hst])

/-! ## ERR -/

/-- Of the engine's turns only the abort writes ERR (60_exceptions.md R240). -/
theorem State.engineStep_fault_or_err (s : State) :
    (∃ x, s.portAccess = some x ∧ s.memErrAt x.addr x.dir = true ∧ s.engineStep = s.memFault x.addr)
      ∨ s.engineStep.status.err = s.status.err := by
  rcases s.engineStep_cases with ⟨-, h⟩ | hfault | ⟨a, -, -, h⟩ | ⟨a, v, -, -, h⟩
  · exact .inr (by rw [h, s.quietStep_goesOn.1])
  · exact .inl hfault
  · refine .inr ?_
    rw [h]
    cases s.phase <;> simp [State.afterRead]
  · refine .inr ?_
    rw [h]
    cases s.phase <;> simp [State.afterWrite, State.lenwStep, State.wckStep, State.wloStep, State.whiStep]

/-- Settles O48, by the classes of steps. -/
theorem errIsWrittenByCommandsAndMemFaults : Obligations.ErrIsWrittenByCommandsAndMemFaults := by
  unfold Obligations.ErrIsWrittenByCommandsAndMemFaults
  intro s t h hne
  rcases step_classes h with ⟨he, -⟩ | ⟨i, rest, ⟨hb, c, hw, -⟩, -⟩ | ⟨hb, ⟨c, hw, -⟩, -⟩ | ⟨-, -, rest, rfl⟩
    | ⟨hr, rest, rfl⟩ | ⟨-, -, rest, d, b, l, rfl⟩ | ⟨-, -, -, -, m, e, f, rest, r, rfl⟩
  · obtain ⟨rest, rfl⟩ := step_eq_engineStep he h
    rcases s.engineStep_fault_or_err with ⟨x, hx, herr, hstep⟩ | hsame
    · exact .inr (.inl ⟨he, by simp [hstep], x, hx, herr, by simp [hstep]⟩)
    · exact absurd hsame hne
  · exact .inl ⟨hb, c, hw⟩
  · exact .inl ⟨hb, c, hw⟩
  · exact absurd rfl hne
  · exact .inr (.inr ⟨hr, rfl⟩)
  · exact absurd rfl hne
  · exact absurd rfl hne

/-! ## The reported registers -/

/-- The step starts a sequence, issues CLEAR or is a reset: it clears every reported register. -/
def State.clearing (s : State) : Prop := s.starts .verify ∨ s.starts .patch ∨ s.issues .clear ∨ s.resets

theorem step_of_starts {s t : State} {k : SeqKind} (hs : s.starts k) (h : step s = .next t) :
    ∃ rest, t = State.startSequence (State.raiseError { s with events := rest } .none) k := by
  obtain ⟨ha, ⟨rfl, hi⟩ | ⟨rfl, hi⟩⟩ := hs <;> obtain ⟨rest, hstep⟩ := step_of_issues hi <;>
    cases hstep.symm.trans h <;> exact ⟨rest, requestSequence_of_accepts rfl ha⟩

theorem step_of_clearing {s t : State} (hc : s.clearing) (h : step s = .next t) :
    t.acc = 0 ∧ t.lanes = ⟨0, 0, 0, 0⟩ ∧ t.count = 0 ∧ t.pck = 0 ∧ t.plo = 0 ∧ t.phi = 0
      ∧ t.readck = 0 ∧ t.faddr = 0 := by
  rcases hc with hs | hs | hi | hr
  · obtain ⟨rest, rfl⟩ := step_of_starts hs h
    simp
  · obtain ⟨rest, rfl⟩ := step_of_starts hs h
    simp
  · obtain ⟨rest, hstep⟩ := step_of_issues hi
    cases hstep.symm.trans h
    simp [operationOf]
  · obtain ⟨rest, hstep⟩ := step_of_resets hr
    cases hstep.symm.trans h
    simp

/-- Who writes each reported register in a step from `s` to `t` that clears none of them (10_state.md R22, R24, R36
to R38). -/
structure ReportedWriters (s t : State) : Prop where
  acc : t.acc ≠ s.acc → s.issues .feed ∨ (s.engineTurn ∧ s.phase = .body)
  lanes : t.lanes ≠ s.lanes → s.issues .feed ∨ s.issues .feedcrc
    ∨ (s.engineTurn ∧ (s.phase = .body ∨ s.phase = .crclo ∨ s.phase = .crchi))
  count : t.count ≠ s.count → t.count = s.count + 4 ∧ (s.issues .feed ∨ s.issues .feedcrc
    ∨ (s.engineTurn ∧ (s.phase = .body ∨ s.phase = .crclo ∨ s.phase = .crchi)))
  patchWords : t.pck ≠ s.pck ∨ t.plo ≠ s.plo ∨ t.phi ≠ s.phi →
    s.issues .latch ∨ (s.engineTurn ∧ s.phase = .body ∧ s.idx.toNat + 12 = s.len.toNat)
  readck : t.readck ≠ s.readck → s.engineTurn ∧ s.phase = .rdck
  faddr : t.faddr ≠ s.faddr → s.engineTurn ∧ t.status.err = .memFault

/-- The turn of a running sequence writes only its own phase's registers. -/
theorem State.Turn.reportedWriters {s t : State} (ht : s.Turn t) (he : s.engineTurn) : ReportedWriters s t := by
  cases ht with
  | fault x _ _ => constructor <;> simp [he]
  | bodyRead hp _ _ _ => constructor <;> simp [he, hp]
  | bodyLatch hp heq _ => constructor <;> simp [he, hp, heq]
  | rdck hp _ _ => constructor <;> simp [he, hp]
  | crclo hp _ _ => constructor <;> simp [he, hp]
  | crchi hp _ _ => constructor <;> simp [he, hp]
  | lenw _ _ _ => constructor <;> simp
  | wck _ _ _ => constructor <;> simp
  | wlo _ _ _ => constructor <;> simp
  | whi _ _ _ => constructor <;> simp

theorem ReportedWriters.of_engineStep {s : State} (hi : s.Inv) (he : s.engineTurn) :
    ReportedWriters s s.engineStep := by
  cases hb : s.status.busy
  · rw [State.engineStep_of_idle (hi.phase_idle hb)]
    constructor <;> simp
  · exact (hi.turn hb).reportedWriters he

theorem ReportedWriters.of_step {s t : State} (hi : s.Inv) (hc : ¬ s.clearing) (h : step s = .next t) :
    ReportedWriters s t := by
  simp only [State.clearing, not_or] at hc
  obtain ⟨hverify, hpatch, hclear, hreset⟩ := hc
  rcases step_classes h with ⟨he, -⟩ | ⟨i, rest, his, rfl⟩ | ⟨-, -, rest, rfl⟩ | ⟨-, -, rest, rfl⟩ | ⟨hr, -⟩
    | ⟨-, -, rest, d, b, l, rfl⟩ | ⟨-, -, -, -, m, e, f, rest, r, rfl⟩
  · obtain ⟨rest, rfl⟩ := step_eq_engineStep he h
    obtain ⟨hacc, hlanes, hcount, hwords, hreadck, hfaddr⟩ := ReportedWriters.of_engineStep hi he
    exact ⟨hacc, hlanes, hcount, hwords, hreadck, hfaddr⟩
  · rcases issues_operation_cases his rfl with ⟨k, hs, -⟩ | ⟨code, hop⟩ | rfl | rfl | rfl | rfl
    · exact absurd (State.starts_verify_or_patch hs) (not_or.mpr ⟨hverify, hpatch⟩)
    · rw [hop]
      constructor <;> simp
    · exact absurd his hclear
    all_goals constructor <;> simp [operationOf, his]
  · constructor <;> simp
  · constructor <;> simp
  · exact absurd hr hreset
  · constructor <;> simp
  · constructor <;> simp

/-- Settles O49: `step_of_clearing` for the steps that clear them, `ReportedWriters.of_step` for the others. -/
theorem writersOfTheReportedRegisters : Obligations.WritersOfTheReportedRegisters := by
  unfold Obligations.WritersOfTheReportedRegisters
  intro s t hi h
  refine ⟨fun hc => step_of_clearing hc h, fun hc => ?_⟩
  obtain ⟨hacc, hlanes, hcount, hwords, hreadck, hfaddr⟩ := ReportedWriters.of_step hi hc h
  exact ⟨hacc, hlanes, hcount, hwords, hreadck, hfaddr⟩

end Sys2Proof.Machine
end

section
/-! PROOFS. The statements about the host's port: the `STATUS` word and `LEN` (10_state.md R27, R28), the opcode map
(30_encoding.md R102, R104), what each event does (20_memory.md R61, R68, R71, R74) and what no command touches. -/

namespace Sys2Proof.Machine

/-! ## The `STATUS` word -/

/-- `STATUS` is the sum of its fields, each at its place (10_state.md R28). -/
theorem Status.word_toNat (st : Status) :
    st.word.toNat = st.busy.toNat + 2 * st.done.toNat + 2 ^ 2 * st.ckOk.toNat + 2 ^ 3 * st.crcOk.toNat
      + 2 ^ 4 * st.ovr.toNat + 2 ^ 8 * st.err.code.toNat + 2 ^ 12 * st.last.code.toNat := by
  simp only [Status.word, toNat_append_eq_add, BitVec.toNat_ofBool, BitVec.toNat_ofNat]
  omega

theorem Status.word_fields (st : Status) :
    st.word.getLsbD 0 = st.busy ∧ st.word.getLsbD 1 = st.done ∧ st.word.getLsbD 2 = st.ckOk
      ∧ st.word.getLsbD 3 = st.crcOk ∧ st.word.getLsbD 4 = st.ovr
      ∧ st.word.extractLsb' 5 3 = 0 ∧ (st.word.extractLsb' 8 4).toNat = st.err.code.toNat
      ∧ (st.word.extractLsb' 12 2).toNat = st.last.code.toNat ∧ st.word.extractLsb' 14 18 = 0 := by
  have herr := st.err.code.isLt
  have hlast := st.last.code.isLt
  have hbusy := st.busy.toNat_le
  have hdone := st.done.toNat_le
  have hck := st.ckOk.toNat_le
  have hcrc := st.crcOk.toNat_le
  have hovr := st.ovr.toNat_le
  have hbit : ∀ (b : Bool) (i : Nat), st.word.toNat / 2 ^ i % 2 = b.toNat → st.word.getLsbD i = b := by
    intro b i h
    rw [BitVec.getLsbD, Nat.testBit_eq_decide_div_mod_eq, h]
    cases b <;> rfl
  rw [Status.word_toNat] at hbit
  refine ⟨hbit _ _ ?_, hbit _ _ ?_, hbit _ _ ?_, hbit _ _ ?_, hbit _ _ ?_, ?_, ?_, ?_, ?_⟩
  iterate 5 omega
  all_goals
    simp only [← BitVec.toNat_inj, BitVec.extractLsb'_toNat, Nat.shiftRight_eq_div_pow, Status.word_toNat,
      BitVec.ofNat_eq_ofNat, BitVec.toNat_ofNat]
    omega

/-- Settles O3: `Status.word_fields` for the fields; a write of STATUS is one that `regWrite` ignores. -/
theorem statusWordFields : Obligations.StatusWordFields := by
  unfold Obligations.StatusWordFields
  refine ⟨fun s w hw => ?_, fun s v rest he => (step_regWrite he (r := .status) rfl).trans rfl, rfl⟩
  subst hw
  obtain ⟨hbusy, hdone, hck, hcrc, hovr, hlow, herr, hlast, hhigh⟩ := s.status.word_fields
  refine ⟨hbusy, hdone, hck, hcrc, hovr, hlow, herr.trans ?_, hlast.trans ?_, hhigh⟩
  · cases s.status.err <;> rfl
  · cases s.status.last <;> rfl

/-! ## `LEN` -/

theorem step_writeLen {s : State} {v : Word} {rest : List Event} (hb : s.status.busy = false)
    (he : s.events = .regWrite (s.regBase + 0x0C) 32 v :: rest) :
    step s = .next { s with events := rest, len := v } := by
  rw [step_regWrite he (r := .len) rfl]
  simp [regWrite, writeOperand, hb]

theorem State.engineStep_len (s : State) : s.engineStep.len = s.len := by
  obtain ⟨-, -, hlen, -⟩ := s.engineStep_frame
  exact hlen

theorem exec_operands {i : Instr} {s t : State} (h : exec i s = .next t) :
    t.data = s.data ∧ t.base = s.base ∧ t.len = s.len := by
  rw [exec_eq] at h
  rcases acceptCommand_cases h with ⟨-, rfl⟩ | ⟨-, rfl⟩
  · exact ⟨rfl, rfl, rfl⟩
  · exact operationOf_operands i (s.raiseError .none)

/-- Settles O9, from the step of a LEN write and the frames of the engine's turn and of CLEAR. -/
theorem lenRegisterTakesAnyValue : Obligations.LenRegisterTakesAnyValue := by
  unfold Obligations.LenRegisterTakesAnyValue
  refine ⟨fun s v rest hb he => step_writeLen hb he, State.engineStep_len, fun s t h => ?_, rfl⟩
  obtain ⟨-, -, hlen⟩ := exec_operands h
  exact hlen

/-! ## Register accesses, well formed and not -/

/-- The window holds a register at exactly the multiples of 4 (10_state.md R41). -/
theorem exists_regAt_iff {off : Nat} (h : off < Config.regWindowBytes) :
    (∃ r, regAt off = some r) ↔ off % 4 = 0 := by
  constructor
  · rintro ⟨r, hr⟩
    rw [regAt_eq hr]
    cases r <;> rfl
  · have haligned : ∀ off < Config.regWindowBytes, off % 4 = 0 → (regAt off).isSome = true := by decide
    exact fun h4 => Option.isSome_iff_exists.mp (haligned off h h4)

theorem registerAccessWf_iff {regBase addr width : Nat} :
    registerAccessWf regBase addr width = true ↔ regBase ≤ addr ∧ addr < regBase + Config.regWindowBytes
      ∧ width = 32 ∧ (addr - regBase) % 4 = 0 := by
  simp [registerAccessWf, and_assoc]

theorem withRegister_of_wf {s : State} {addr width : Nat} (h : registerAccessWf s.regBase addr width = true)
    (k : Reg → Host.Outcome State Fault Refusal) : ∃ r, withRegister s addr width k = k r := by
  obtain ⟨hlo, hhi, rfl, h4⟩ := registerAccessWf_iff.mp h
  obtain ⟨r, hr⟩ := (exists_regAt_iff (off := addr - s.regBase) (by omega)).mpr h4
  refine ⟨r, ?_⟩
  rw [← withRegister_at (s := s) (k := k) hr, Nat.add_sub_cancel' hlo]

theorem withRegister_of_not_wf {s : State} {addr width : Nat} (h : registerAccessWf s.regBase addr width = false)
    (k : Reg → Host.Outcome State Fault Refusal) : ∃ r, withRegister s addr width k = .refused r
      ∧ (r = .registerAccessWidth ∨ r = .registerAccessMisaligned ∨ r = .outsideRegisterWindow) := by
  have hwf : ¬ registerAccessWf s.regBase addr width = true := Bool.eq_false_iff.mp h
  rw [registerAccessWf_iff] at hwf
  by_cases hout : addr < s.regBase ∨ s.regBase + Config.regWindowBytes ≤ addr
  · exact ⟨_, if_pos hout, by simp⟩
  by_cases hwidth : width ≠ 32
  · exact ⟨_, (if_neg hout).trans (if_pos hwidth), by simp⟩
  have hnone : regAt (addr - s.regBase) = none := by
    rw [Option.eq_none_iff_forall_ne_some]
    intro r hr
    have h4 := (exists_regAt_iff (off := addr - s.regBase) (by omega)).mp ⟨r, hr⟩
    omega
  refine ⟨.registerAccessMisaligned, ?_, by simp⟩
  rw [withRegister, if_neg hout, if_neg hwidth, hnone]

/-! ## Every well-formed event has a next state -/

theorem acceptCommand_next (s : State) (f : State → State) : ∃ t, acceptCommand s f = .next t := by
  cases hb : s.status.busy
  · exact ⟨_, acceptCommand_idle hb⟩
  · exact ⟨_, acceptCommand_busy hb⟩

theorem exec_next (i : Instr) (s : State) : ∃ t, exec i s = .next t := by
  rw [exec_eq]
  exact acceptCommand_next s _

theorem writeOperand_next (s u : State) : ∃ t, writeOperand s u = .next t := by
  unfold writeOperand
  split
  · exact ⟨_, rfl⟩
  · exact ⟨_, rfl⟩

theorem regWrite_next (r : Reg) (v : Word) (s : State) : ∃ t, regWrite r v s = .next t := by
  cases r
  case cmd =>
    simp only [regWrite, commandWrite]
    cases decode v with
    | ok i => exact exec_next i s
    | error e => exact acceptCommand_next s _
  case data | base | len => exact writeOperand_next s _
  all_goals exact ⟨s, rfl⟩

theorem perform_next {e : Event} {s : State} (h : e.wf s.regBase = true) : ∃ t, perform e s = .next t := by
  cases e
  case regRead addr width =>
    obtain ⟨r, hr⟩ := withRegister_of_wf h fun r => .next (s.regRead r)
    exact ⟨_, hr⟩
  case regWrite addr width v =>
    obtain ⟨r, hr⟩ := withRegister_of_wf h fun r => regWrite r v s
    obtain ⟨t, ht⟩ := regWrite_next r v s
    exact ⟨t, hr.trans ht⟩
  all_goals exact ⟨_, rfl⟩

theorem step_next {s : State} {e : Event} {rest : List Event} (he : s.events = e :: rest)
    (h : e.wf s.regBase = true) : ∃ t, step s = .next t := by
  obtain ⟨t, ht⟩ := perform_next (s := { s with events := rest }) h
  exact ⟨t, by rw [step, he]; exact ht⟩

/-- Settles O10: `perform_next` for a well-formed event; of the others only the two register accesses can be ill
formed, and `withRegister` refuses them by name. -/
theorem stepRefusesExactlyIllFormedAccesses : Obligations.StepRefusesExactlyIllFormedAccesses := by
  unfold Obligations.StepRefusesExactlyIllFormedAccesses
  refine ⟨fun s h => ⟨_, step_noEvents h⟩, fun s e rest he => ⟨step_next he, fun hwf => ?_⟩⟩
  rw [step, he]
  cases e
  case regRead addr width => exact withRegister_of_not_wf (s := { s with events := rest }) hwf _
  case regWrite addr width v => exact withRegister_of_not_wf (s := { s with events := rest }) hwf _
  all_goals cases hwf

/-! ## The opcode map -/

theorem decode_encode (i : Instr) : decode (encode i) = .ok i := by
  cases i <;> rfl

/-- Settles O11: each listed word, decoded. -/
theorem commandWordsOfTheOpcodeMap : Obligations.CommandWordsOfTheOpcodeMap := by
  unfold Obligations.CommandWordsOfTheOpcodeMap
  refine ⟨rfl, rfl, rfl, rfl, rfl, rfl, rfl, fun c hc => ?_⟩
  simp only [List.mem_cons, List.not_mem_nil, or_false] at hc
  rcases hc with rfl | rfl | rfl | rfl | rfl | rfl | rfl | rfl | rfl <;> rfl

/-- Settles O12: `eq_encode_of_decode` and `decode_encode`, and the decoder's errors against the illegal words. -/
theorem decodeIsTheInverseOfEncode : Obligations.DecodeIsTheInverseOfEncode := by
  unfold Obligations.DecodeIsTheInverseOfEncode
  refine ⟨fun c i => ⟨eq_encode_of_decode, ?_⟩, fun c => ⟨?_, exists_decode_error_of_illegalWord⟩⟩
  · rintro rfl
    exact decode_encode i
  · rintro ⟨e, he⟩
    exact illegalWord_of_decode_error he

/-- Settles O14: the write reaches CMD, and the word decodes. -/
theorem stepRunsTheDecodedCommand : Obligations.StepRunsTheDecodedCommand := by
  unfold Obligations.StepRunsTheDecodedCommand
  intro s c i rest hd he
  rw [step_regWrite he (r := .cmd) rfl, regWrite, commandWrite, hd]

/-! ## The other events -/

theorem step_wait_notBusy {s : State} {rest : List Event} (he : s.events = .wait :: rest)
    (hb : s.status.busy = false) : step s = .next { s with events := rest, reply := .reg s.status.word } := by
  simp [step, he, perform, State.waitTurn, hb, State.regRead, State.regValue]

theorem step_wait_busy {s : State} {rest : List Event} (he : s.events = .wait :: rest) (hb : s.status.busy = true) :
    step s = .next { s with events := .engine :: .wait :: rest, reply := .reg s.status.word } := by
  simp [step, he, perform, State.waitTurn, hb, State.regRead, State.regValue]

/-- Settles O15, event by event; the bytes of an outside read are `Memory.readBytes_spec`, what it and an outside
write leave are `State.byteAt_memAfterRead` and `Memory.byteAt_writeCells`. -/
theorem stepTakesTheNextEvent : Obligations.StepTakesTheNextEvent := by
  unfold Obligations.StepTakesTheNextEvent
  intro s
  refine ⟨step_noEvents, fun rest he => ?_, fun a n rest he => ?_, fun cells rest he => ?_, fun regions rest he => ?_,
    fun effects rest he => ?_, fun rest he hb => step_wait_notBusy he hb, fun rest he hb => step_wait_busy he hb⟩
  · rw [step, he]
    rfl
  · obtain ⟨hlen, hbytes⟩ := s.mem.readBytes_spec n a
    exact ⟨s.mem.readBytes a n, s.memAfterRead a n, by rw [step, he]; rfl, hlen, hbytes,
      fun hm x => State.byteAt_memAfterRead hm a n x⟩
  · exact ⟨s.mem.writeCells cells, by rw [step, he]; rfl, fun hm x => Memory.byteAt_writeCells hm cells x⟩
  · rw [step, he]
    rfl
  · rw [step, he]
    rfl

/-! ## What a command leaves alone -/

/-- No command touches the platform's fields or the model's own (20_memory.md R60). -/
theorem operationOf_platform (i : Instr) (s : State) :
    (operationOf i s).regBase = s.regBase ∧ (operationOf i s).memErr = s.memErr
      ∧ (operationOf i s).readEffects = s.readEffects ∧ (operationOf i s).events = s.events
      ∧ (operationOf i s).reply = s.reply := by
  have hreq : ∀ k m, (s.requestSequence k m).regBase = s.regBase ∧ (s.requestSequence k m).memErr = s.memErr
      ∧ (s.requestSequence k m).readEffects = s.readEffects ∧ (s.requestSequence k m).events = s.events
      ∧ (s.requestSequence k m).reply = s.reply := by
    intro k m
    rcases s.requestSequence_cases k m with ⟨-, h⟩ | ⟨-, -, h⟩ | ⟨-, -, h⟩ <;> simp [h]
  cases i
  case verify => exact hreq _ _
  case patch => exact hreq _ _
  all_goals simp [operationOf]

theorem operationOf_position {i : Instr} (hv : i ≠ .verify) (hp : i ≠ .patch) (s : State) :
    (operationOf i s).phase = s.phase ∧ (operationOf i s).idx = s.idx := by
  cases i
  case verify => exact absurd rfl hv
  case patch => exact absurd rfl hp
  all_goals exact ⟨rfl, rfl⟩

/-- Settles O25: a command is dropped, or runs its operation, whose frame is `operationOf_mem`,
`operationOf_operands`, `operationOf_platform` and `operationOf_position`. -/
theorem commandsLeaveMemoryAndOperands : Obligations.CommandsLeaveMemoryAndOperands := by
  unfold Obligations.CommandsLeaveMemoryAndOperands
  intro i s
  cases hb : s.status.busy
  · obtain ⟨hdata, hbase, hlen⟩ := operationOf_operands i (s.raiseError .none)
    obtain ⟨hregBase, hmemErr, heffects, hevents, hreply⟩ := operationOf_platform i (s.raiseError .none)
    exact ⟨_, exec_of_idle i hb, fun a => by rw [operationOf_mem]; rfl, hdata, hbase, hlen, hregBase, hmemErr, heffects,
      hevents, hreply, fun hv hp => operationOf_position hv hp _⟩
  · exact ⟨_, exec_of_busy i hb, fun a => rfl, rfl, rfl, rfl, rfl, rfl, rfl, rfl, rfl, fun _ _ => ⟨rfl, rfl⟩⟩

end Sys2Proof.Machine
end

section
/-! PROOFS. The statements about the CRC table, a lane's stream, the checksum word and the primitive route
(41_feed.md R132, R136, R137; 42_patch_writer.md R175; 70_reset_and_hazards.md R285). -/

namespace Sys2Proof.Machine

/-! ## The table and one lane -/

/-- The entries of the table, by the two digits of their index. -/
theorem listedTable_eq_crcTable : ∀ hi lo : Fin 16,
    listedTable[16 * hi.val + lo.val]? = some (crcTable (BitVec.ofNat 8 (16 * hi.val + lo.val))) := by
  decide

theorem listedTable_length : listedTable.length = 256 := by
  simp only [listedTable, List.length_append, List.length_cons, List.length_nil]

/-- Settles O26, entry by entry (`listedTable_eq_crcTable`). -/
theorem crcTableHasTheListedValues : Obligations.CrcTableHasTheListedValues := by
  unfold Obligations.CrcTableHasTheListedValues
  refine ⟨listedTable_length, fun n => ?_⟩
  have hentry := listedTable_eq_crcTable ⟨n.toNat / 16, by omega⟩ ⟨n.toNat % 16, by omega⟩
  simpa only [Nat.div_add_mod, BitVec.ofNat_toNat, BitVec.setWidth_eq] using hentry

/-- Settles O27: a lane's low byte cancels in the table index, and then what is left is the high byte. -/
theorem laneFedItsOwnBytesIsZero : Obligations.LaneFedItsOwnBytesIsZero := by
  unfold Obligations.LaneFedItsOwnBytesIsZero
  exact fun l => ⟨laneStep_lowByte l, laneStep_lowByte_highByte l⟩

theorem laneStep_zero_zero : laneStep 0 0 = 0 :=
  laneStep_lowByte 0

theorem foldl_laneStep_replicate_zero (n : Nat) : (List.replicate n (0 : Byte)).foldl laneStep 0 = 0 := by
  induction n with
  | zero => rfl
  | succ n ih => rw [List.replicate_succ, List.foldl_cons, laneStep_zero_zero, ih]

/-- Settles O28: the run leaves the lane at its start value, 0. -/
theorem leadingZeroBytesLeaveTheLaneZero : Obligations.LeadingZeroBytesLeaveTheLaneZero := by
  unfold Obligations.LeadingZeroBytesLeaveTheLaneZero
  intro n bytes
  have hrun : (List.replicate n (0 : Byte)).foldl laneStep Config.crcInit = Config.crcInit :=
    foldl_laneStep_replicate_zero n
  rw [laneOver, List.foldl_append, hrun, laneOver]

/-! ## The checksum word -/

theorem add_checksumWord (acc : Word) : acc + checksumWord acc = 0 := by
  simp [checksumWord]

/-- Settles O29: the sum and the word LATCH captures are opposite. -/
theorem checksumWordCancelsTheSum : Obligations.ChecksumWordCancelsTheSum := by
  unfold Obligations.ChecksumWordCancelsTheSum
  refine ⟨fun s t hb h => ?_, fun acc readck => ?_⟩
  · cases (exec_latch_of_idle hb).symm.trans h
    exact ⟨_, exec_of_idle .feed (by exact hb), add_checksumWord s.acc⟩
  · constructor <;> intro h <;> bv_omega

/-! ## The primitive route -/

/-- FEEDW while BUSY = 0: DATA takes the word and the engine is fed it. -/
theorem run_feedW {s : State} {w : Word} {rest : List Event} (hb : s.status.busy = false)
    (he : s.events = hostEvents s.regBase (pseudoFeedW w) ++ rest) :
    Host.Core.run Sys2Proof.core 2 s
      = .next (State.feedWord { s with events := rest, data := w, status := { s.status with err := .none } } w) := by
  have hwrite : step s = _ := step_writeData hb he
  rw [run_succ 1 hwrite]
  exact run_succ 0 (step_command (i := .feed) (rest := rest) hb rfl)

theorem hostEvents_append (regBase : Nat) (p q : List HostOp) :
    hostEvents regBase (p ++ q) = hostEvents regBase p ++ hostEvents regBase q :=
  List.map_append

/-- The events of a FEEDW for each word, from any state with BUSY = 0: the words are summed and the lanes are fed
them in order. -/
theorem run_feedWords (ws : List Word) {s : State} {rest : List Event} (hb : s.status.busy = false)
    (he : s.events = hostEvents s.regBase (ws.flatMap pseudoFeedW) ++ rest) :
    ∃ t, Host.Core.run Sys2Proof.core (2 * ws.length) s = .next t
      ∧ t.events = rest ∧ t.status.busy = false ∧ t.regBase = s.regBase ∧ t.mem = s.mem
      ∧ t.acc = s.acc + ws.sum ∧ t.lanes = ws.foldl lanesFed s.lanes
      ∧ t.count = s.count + BitVec.ofNat 32 (4 * ws.length) := by
  induction ws generalizing s with
  | nil => exact ⟨s, rfl, he, hb, rfl, rfl, by simp, rfl, by simp⟩
  | cons w ws ih =>
    rw [List.flatMap_cons, hostEvents_append, List.append_assoc] at he
    have hfeed := run_feedW hb he
    obtain ⟨t, hrun, hevents, hbusy, hregBase, hmem, hacc, hlanes, hcount⟩ := ih
      (s := State.feedWord { s with
        events := hostEvents s.regBase (ws.flatMap pseudoFeedW) ++ rest, data := w
        status := { s.status with err := .none } } w) hb rfl
    refine ⟨t, ?_, hevents, hbusy, hregBase, hmem, ?_, hlanes, ?_⟩
    · rw [List.length_cons, Nat.mul_succ, Nat.add_comm, run_add _ hfeed]
      exact hrun
    · rw [hacc, List.sum_cons, ← BitVec.add_assoc, State.feedWord_acc]
    · rw [hcount, List.length_cons, Nat.mul_succ, BitVec.ofNat_add, BitVec.add_comm (BitVec.ofNat 32 _),
        ← BitVec.add_assoc, State.feedWord_count]
      rfl

/-- Settles O30: CLEAR, `run_feedWords`, LATCH. -/
theorem primitiveRouteFormsThePatchWords : Obligations.PrimitiveRouteFormsThePatchWords := by
  unfold Obligations.PrimitiveRouteFormsThePatchWords
  intro s ws hb he
  rw [List.append_assoc, hostEvents_append, hostEvents_append] at he
  have hclear : step s = _ := step_command (i := .clear) hb he
  obtain ⟨t, hrun, hevents, hbusy, hregBase, hmem, hacc, hlanes, hcount⟩ := run_feedWords ws
    (s := State.clearAll (State.raiseError { s with
      events := hostEvents s.regBase (ws.flatMap pseudoFeedW) ++ hostEvents s.regBase [.cmd .latch] } .none))
    hb rfl
  have hlatch : step t = _ := step_command (i := .latch) (rest := []) hbusy (by rw [hevents, hregBase]; rfl)
  have hsum : t.acc = ws.sum := hacc.trans (BitVec.zero_add _)
  refine ⟨State.latchWords (State.raiseError { t with events := [] } .none), ?_, rfl, hsum,
    fun ws' hperm => hsum.trans hperm.sum_eq, hlanes, hcount.trans (BitVec.zero_add _), ?_,
    rfl, rfl, rfl, hmem⟩
  · exact (run_succ _ hclear).trans ((run_add 1 hrun).trans (run_succ 0 hlatch))
  · exact congrArg checksumWord hsum

end Sys2Proof.Machine
end

section
/-! PROOFS. The steps a sequence takes and that it always ends (43_sequencer.md R206; 20_memory.md R77;
30_encoding.md R105), and what the engine reads right after a host write (20_memory.md R71). -/

namespace Sys2Proof.Machine

/-! ## The steps a sequence has left -/

theorem State.stepsLeft_pos {s : State} (hp : s.phase ≠ .idle) : 0 < s.stepsLeft := by
  cases h : s.phase <;> simp [State.stepsLeft, h] at hp ⊢

theorem State.stepsLeft_idle {s : State} (hp : s.phase = .idle) : s.stepsLeft = 0 := by
  simp [State.stepsLeft, hp]

theorem State.stepsLeft_body {s : State} (hp : s.phase = .body) :
    s.stepsLeft = s.bodyWordsLeft + 1 + (if s.status.last = .verify then 3 else 4) := by
  simp only [State.stepsLeft, hp]

/-- One body word is read: one fewer is left. -/
theorem State.bodyWordsLeft_bodyReadStep {s : State} (hlt : s.idx.toNat + 12 < s.len.toNat)
    (hidx : s.idx.toNat % 4 = 0) (hlen : s.len.toNat % 4 = 0) (w : Word) :
    (s.bodyReadStep w).bodyWordsLeft + 1 = s.bodyWordsLeft := by
  have hnext : (s.idx + 4).toNat = s.idx.toNat + 4 := by bv_omega
  simp only [State.bodyWordsLeft, State.bodyReadStep_len, State.bodyReadStep_idx, hnext]
  omega

theorem State.bodyWordsLeft_end {s : State} (h : s.idx.toNat + 12 = s.len.toNat) : s.bodyWordsLeft = 0 := by
  simp only [State.bodyWordsLeft]
  omega

/-- A turn is the abort or takes one step off those left. -/
theorem State.Turn.fault_or_stepsLeft {s t : State} (ht : s.Turn t) (hi : s.Inv) (hb : s.status.busy = true) :
    (∃ x, s.portAccess = some x ∧ s.memErrAt x.addr x.dir = true ∧ t.status.busy = false)
      ∨ t.stepsLeft + 1 = s.stepsLeft := by
  cases ht with
  | fault x hx he => exact .inl ⟨x, hx, he, rfl⟩
  | bodyRead hp hlt _ _ =>
    obtain ⟨hidx, -⟩ := (hi.running hb).bodyOffset hp
    have hleft := s.bodyWordsLeft_bodyReadStep hlt hidx (hi.running hb).lengthMultiple
      (s.mem.readWord (s.base + s.idx))
    refine .inr ?_
    have hnext : (s.bodyReadStep (s.mem.readWord (s.base + s.idx))).stepsLeft
        = (s.bodyReadStep (s.mem.readWord (s.base + s.idx))).bodyWordsLeft + 1
          + (if s.status.last = .verify then 3 else 4) := State.stepsLeft_body hp
    change State.stepsLeft (s.bodyReadStep (s.mem.readWord (s.base + s.idx))) + 1 = s.stepsLeft
    rw [hnext, State.stepsLeft_body hp]
    omega
  | bodyLatch hp heq _ =>
    refine .inr ?_
    simp only [State.stepsLeft, hp, State.bodyWordsLeft_end heq, State.bodyLatchStep_phase]
    by_cases hk : s.status.last = .verify <;> simp [hk]
  | rdck hp _ _ => exact .inr (by simp [State.stepsLeft, hp])
  | crclo hp _ _ => exact .inr (by simp [State.stepsLeft, hp])
  | crchi hp _ _ => exact .inr (by simp [State.stepsLeft, hp])
  | lenw hp _ _ => exact .inr (by simp [State.stepsLeft, hp])
  | wck hp _ _ => exact .inr (by simp [State.stepsLeft, hp])
  | wlo hp _ _ => exact .inr (by simp [State.stepsLeft, hp])
  | whi hp _ _ => exact .inr (by simp [State.stepsLeft, hp])

/-- An accepted sequence has all of its body, the latch and its tail before it. -/
theorem State.stepsLeft_startSequence (s : State) (k : SeqKind) :
    (s.startSequence k).stepsLeft = (s.len.toNat - 12) / 4 + 1 + (if k = .verify then 3 else 4) := by
  cases k <;> rfl

/-- Settles O50: `State.Turn.fault_or_stepsLeft` for a turn; another event writes nothing that the steps left depend
on (`step_of_busy_other`). -/
theorem everyTurnTakesOneStepOfTheSequence : Obligations.EveryTurnTakesOneStepOfTheSequence := by
  unfold Obligations.EveryTurnTakesOneStepOfTheSequence
  refine ⟨fun s hi hb => (hi.turn hb).fault_or_stepsLeft hi hb, fun s t hi hb he hr h => ?_, fun s t ha h => ?_,
    fun s t ha h => ?_⟩
  · obtain ⟨o, m, e, f, ev, r, rfl⟩ := step_of_busy_other hb he hr h
    exact ⟨hb, rfl⟩
  · cases (exec_of_accepts (i := .verify) (minimum := Config.minLenVerify) rfl rfl ha).symm.trans h
    exact State.stepsLeft_startSequence _ _
  · cases (exec_of_accepts (i := .patch) (minimum := Config.minLenPatch) rfl rfl ha).symm.trans h
    exact State.stepsLeft_startSequence _ _

/-! ## The engine left to itself -/

theorem State.Inv.phase_ne_idle {s : State} (hi : s.Inv) (hb : s.status.busy = true) : s.phase ≠ .idle := by
  simp [hi.idleIffNotBusy, hb]

/-- Every turn of a running sequence leaves fewer steps: the abort leaves none. -/
theorem State.Inv.stepsLeft_engineStep_lt {s : State} (hi : s.Inv) (hb : s.status.busy = true) :
    s.engineStep.stepsLeft < s.stepsLeft := by
  rcases (hi.turn hb).fault_or_stepsLeft hi hb with ⟨-, -, -, hnb⟩ | hleft
  · rw [State.stepsLeft_idle (hi.engineStep.phase_idle hnb)]
    exact State.stepsLeft_pos (hi.phase_ne_idle hb)
  · omega

/-- A turn after which no sequence runs has finished or aborted it: DONE is 1. -/
theorem State.done_engineStep {s : State} (hb : s.status.busy = true)
    (hnb : s.engineStep.status.busy = false) : s.engineStep.status.done = true := by
  rcases s.engineStep_goesOn_or_ends with ⟨hst, -⟩ | hends
  · simp [hst, hb] at hnb
  · exact hends.done

theorem State.engineStep_memErrAt (s : State) (a : Word) (d : Dir) : s.engineStep.memErrAt a d = s.memErrAt a d := by
  obtain ⟨-, -, -, hmemErr, -⟩ := s.engineStep_frame
  simp only [State.memErrAt, hmemErr]

theorem State.engineStep_events (s : State) : s.engineStep.events = s.events := by
  obtain ⟨-, -, -, -, -, hevents, -⟩ := s.engineStep_frame
  exact hevents

/-- With no event to come and no access failing, a running sequence is busy for exactly the steps it has left, and
then done without error. -/
theorem run_stepsLeft {n : Nat} {s : State} (hi : s.Inv) (hb : s.status.busy = true) (he : s.events = [])
    (hok : ∀ a d, s.memErrAt a d = false) (hn : s.stepsLeft = n) :
    (∀ j, j < n → ∃ u, Host.Core.run Sys2Proof.core j s = .next u ∧ u.status.busy = true)
      ∧ ∃ u, Host.Core.run Sys2Proof.core n s = .next u ∧ u.status.busy = false ∧ u.status.done = true
        ∧ u.status.err = .none ∧ u.phase = .idle := by
  induction n generalizing s with
  | zero => exact absurd hn (State.stepsLeft_pos (hi.phase_ne_idle hb)).ne'
  | succ n ih =>
    have hstep := step_noEvents he
    have hleft : s.engineStep.stepsLeft = n := by
      rcases (hi.turn hb).fault_or_stepsLeft hi hb with ⟨x, -, herr, -⟩ | hleft
      · simp [hok] at herr
      · omega
    cases hb' : s.engineStep.status.busy
    · have hidle := hi.engineStep.phase_idle hb'
      have hzero : n = 0 := hleft.symm.trans (State.stepsLeft_idle hidle)
      have herr : s.engineStep.status.err = .none := by
        rcases s.engineStep_fault_or_err with ⟨x, -, herr, -⟩ | hsame
        · simp [hok] at herr
        · exact hsame.trans (hi.running hb).noError
      subst hzero
      refine ⟨fun j hj => ⟨s, ?_, hb⟩, _, run_succ 0 hstep, hb', State.done_engineStep hb hb', herr, hidle⟩
      rw [Nat.lt_one_iff.mp hj, run_zero]
    · obtain ⟨hbusy, hend⟩ := ih hi.engineStep hb' (s.engineStep_events.trans he)
        (fun a d => (s.engineStep_memErrAt a d).trans (hok a d)) hleft
      refine ⟨fun j hj => ?_, by rw [run_succ n hstep]; exact hend⟩
      cases j with
      | zero => exact ⟨s, run_zero s, hb⟩
      | succ j =>
        rw [run_succ j hstep]
        exact hbusy j (Nat.lt_of_succ_lt_succ hj)

/-- Settles O51: the accepted sequence has those steps before it, and `run_stepsLeft`. -/
theorem sequenceTakesExactlyItsSteps : Obligations.SequenceTakesExactlyItsSteps := by
  unfold Obligations.SequenceTakesExactlyItsSteps
  intro s t k i n hk hi ha he hok h
  have hstart : exec i s = .next ((s.raiseError .none).startSequence k)
      ∧ n = (s.len.toNat - 12) / 4 + 1 + (if k = .verify then 3 else 4) := by
    rcases hk with ⟨rfl, rfl, rfl⟩ | ⟨rfl, rfl, rfl⟩
    · exact ⟨exec_of_accepts (minimum := Config.minLenVerify) rfl rfl ha, rfl⟩
    · exact ⟨exec_of_accepts (minimum := Config.minLenPatch) rfl rfl ha, rfl⟩
  obtain ⟨hexec, hn⟩ := hstart
  cases hexec.symm.trans h
  have hk' : k = .verify ∨ k = .patch := hk.imp And.left And.left
  exact run_stepsLeft (hi.startSequence hk' ha) rfl he hok (hn ▸ State.stepsLeft_startSequence _ _)

/-! ## Every sequence ends -/

/-- Within `bound` steps no sequence runs, and one that ran is done unless a reset came. -/
def State.RunsToEnd (s : State) (bound : Nat) : Prop :=
  ∃ n, n ≤ bound ∧ ∃ t, Host.Core.run Sys2Proof.core n s = .next t ∧ t.status.busy = false ∧ t.phase = .idle
    ∧ (s.status.busy = true → (∀ e ∈ s.events, e ≠ .reset) → t.status.done = true)

theorem State.RunsToEnd.of_notBusy {s : State} (hi : s.Inv) (hb : s.status.busy = false) (bound : Nat) :
    s.RunsToEnd bound :=
  ⟨0, Nat.zero_le _, s, run_zero s, hb, hi.phase_idle hb, by simp [hb]⟩

/-- After `m` steps the sequence has ended, or goes on to its end. -/
theorem State.RunsToEnd.after {s u : State} {m bound : Nat} (hrun : Host.Core.run Sys2Proof.core m s = .next u)
    (hu : u.Inv) (hevents : ∀ e ∈ u.events, e ∈ s.events)
    (hdone : u.status.busy = false → (∀ e ∈ s.events, e ≠ .reset) → u.status.done = true)
    (hend : u.status.busy = true → u.RunsToEnd bound) : s.RunsToEnd (m + bound) := by
  cases hb : u.status.busy
  · exact ⟨m, Nat.le_add_right _ _, u, hrun, hb, hu.phase_idle hb, fun _ => hdone hb⟩
  · obtain ⟨n, hn, t, ht, htb, htp, htd⟩ := hend hb
    exact ⟨m + n, Nat.add_le_add_left hn m, t, (run_add n hrun).trans ht, htb, htp,
      fun _ hreset => htd hb fun e he => hreset e (hevents e he)⟩

theorem State.RunsToEnd.mono {s : State} {b c : Nat} (h : s.RunsToEnd b) (hbc : b ≤ c) : s.RunsToEnd c := by
  obtain ⟨n, hn, ht⟩ := h
  exact ⟨n, hn.trans hbc, ht⟩

theorem runsToEnd_of_noEvents {n : Nat} {s : State} (hi : s.Inv) (he : s.events = []) (hn : s.stepsLeft ≤ n) :
    s.RunsToEnd s.stepsLeft := by
  induction n generalizing s with
  | zero =>
    cases hb : s.status.busy
    · exact .of_notBusy hi hb _
    · exact absurd hn (State.stepsLeft_pos (hi.phase_ne_idle hb)).not_ge
  | succ n ih =>
    cases hb : s.status.busy
    · exact .of_notBusy hi hb _
    · have hlt := hi.stepsLeft_engineStep_lt hb
      have hevents := s.engineStep_events
      exact (State.RunsToEnd.after (run_succ 0 (step_noEvents he)) hi.engineStep (by simp [hevents])
        (fun hnb _ => State.done_engineStep hb hnb)
        fun _ => ih hi.engineStep (hevents.trans he) (by omega)).mono (by omega)

/-! ### Events between the steps -/

theorem step_regBase {s t : State} (h : step s = .next t) : t.regBase = s.regBase := by
  have hturn : s.engineStep.regBase = s.regBase := by
    obtain ⟨-, -, -, -, hregBase, -⟩ := s.engineStep_frame
    exact hregBase
  rcases step_classes h with ⟨he, -⟩ | ⟨i, rest, -, rfl⟩ | ⟨-, -, rest, rfl⟩ | ⟨-, -, rest, rfl⟩ | ⟨-, rest, rfl⟩
    | ⟨-, -, rest, d, b, l, rfl⟩ | ⟨-, -, -, -, m, e, f, rest, r, rfl⟩
  · obtain ⟨rest, rfl⟩ := step_eq_engineStep he h
    exact hturn
  · obtain ⟨hregBase, -⟩ := operationOf_platform i (State.raiseError { s with events := rest } .none)
    exact hregBase
  all_goals rfl

theorem regWrite_events {r : Reg} {v : Word} {s t : State} (h : regWrite r v s = .next t) : t.events = s.events := by
  rcases regWrite_cases h with ⟨-, rfl, -⟩
    | ⟨-, ⟨i, -, -, rfl⟩ | ⟨e, -, -, rfl⟩ | ⟨-, rfl⟩ | ⟨-, rfl⟩ | ⟨-, rfl⟩⟩ | ⟨-, -, -, -, rfl⟩
  · rfl
  · obtain ⟨-, -, -, hevents, -⟩ := operationOf_platform i (s.raiseError .none)
    exact hevents
  all_goals rfl

/-- Every event but a poll of WAIT leaves just the later ones to come. -/
theorem step_events {s t : State} {e : Event} {rest : List Event} (he : s.events = e :: rest) (hw : e ≠ .wait)
    (h : step s = .next t) : t.events = rest := by
  rcases step_cases h with ⟨hnil, -⟩ | ⟨e', rest', s0, he', rfl, hh⟩
  · simp [he] at hnil
  cases he.symm.trans he'
  rcases hh with ⟨a, w, r, -, -, -, -, rfl⟩ | ⟨a, w, v, r, -, -, -, -, hwr⟩ | ⟨a, n, -, rfl⟩ | ⟨cells, -, rfl⟩
    | ⟨rfl, -⟩ | ⟨-, rfl⟩ | ⟨-, rfl⟩ | ⟨g, -, rfl⟩ | ⟨g, -, rfl⟩
  · rfl
  · exact regWrite_events hwr
  · rfl
  · rfl
  · exact absurd rfl hw
  · exact State.engineStep_events _
  all_goals rfl

/-- A poll of WAIT while BUSY = 1, and the engine's turn it lets pass: the poll stands in front again. -/
theorem run_wait_busy {s : State} {rest : List Event} (he : s.events = .wait :: rest) (hi : s.Inv)
    (hb : s.status.busy = true) :
    ∃ u, Host.Core.run Sys2Proof.core 2 s = .next u ∧ u.Inv ∧ u.events = .wait :: rest ∧ u.regBase = s.regBase
      ∧ u.stepsLeft < s.stepsLeft ∧ (u.status.busy = false → u.status.done = true) := by
  have hpoll := step_wait_busy he hb
  have hturn : step { s with events := .engine :: .wait :: rest, reply := .reg s.status.word }
    = .next (State.engineStep { s with events := .wait :: rest, reply := .reg s.status.word }) := rfl
  have hi' := (hi.step hpoll).withEvents (.wait :: rest)
  obtain ⟨-, -, -, -, hregBase, hevents, -⟩ :=
    State.engineStep_frame { s with events := .wait :: rest, reply := .reg s.status.word }
  exact ⟨_, (run_succ 1 hpoll).trans (run_succ 0 hturn), hi'.engineStep, hevents, hregBase,
    hi'.stepsLeft_engineStep_lt hb, State.done_engineStep hb⟩

/-- An event but a poll of WAIT, met by a running sequence. -/
theorem step_of_busy_event {s : State} {e : Event} {rest : List Event} (he : s.events = e :: rest)
    (hwf : e.wf s.regBase = true) (hw : e ≠ .wait) (hi : s.Inv) (hb : s.status.busy = true) :
    ∃ u, step s = .next u ∧ u.Inv ∧ u.events = rest ∧ u.regBase = s.regBase ∧ u.stepsLeft ≤ s.stepsLeft
      ∧ (u.status.busy = false → e ≠ .reset → u.status.done = true) := by
  obtain ⟨u, hu⟩ := step_next he hwf
  have hiu := hi.step hu
  refine ⟨u, hu, hiu, step_events he hw hu, step_regBase hu, ?_⟩
  by_cases hturn : s.engineTurn
  · obtain ⟨rest', rfl⟩ := step_eq_engineStep hturn hu
    exact ⟨(hi.stepsLeft_engineStep_lt hb).le, fun hnb _ => State.done_engineStep hb hnb⟩
  by_cases hreset : s.resets
  · obtain ⟨rest', he'⟩ := hreset
    cases he.symm.trans he'
    cases (step_of_reset he).symm.trans hu
    exact ⟨Nat.zero_le _, fun _ hne => absurd rfl hne⟩
  · obtain ⟨o, m, e', f, ev, r, rfl⟩ := step_of_busy_other hb hturn hreset hu
    exact ⟨le_rfl, fun hnb => absurd hb (Bool.eq_false_iff.mp hnb)⟩

theorem runsToEnd_of_wf {n : Nat} {s : State} (hi : s.Inv) (hwf : ∀ e ∈ s.events, e.wf s.regBase = true)
    (hn : s.events.length + s.stepsLeft ≤ n) : s.RunsToEnd (s.events.length + 2 * s.stepsLeft) := by
  induction n generalizing s with
  | zero =>
    cases hb : s.status.busy
    · exact .of_notBusy hi hb _
    · have hpos := State.stepsLeft_pos (hi.phase_ne_idle hb)
      omega
  | succ n ih =>
    cases hb : s.status.busy
    · exact .of_notBusy hi hb _
    have hlt := hi.stepsLeft_engineStep_lt hb
    cases he : s.events with
    | nil =>
      exact (runsToEnd_of_noEvents hi he le_rfl).mono (by omega)
    | cons e rest =>
      rw [he, List.length_cons] at hn
      rw [he] at hwf
      by_cases hw : e = .wait
      · subst hw
        obtain ⟨u, hrun, hiu, hevents, hregBase, hleft, hdone⟩ := run_wait_busy he hi hb
        refine (State.RunsToEnd.after hrun hiu (by simp [hevents, he]) (fun hnb _ => hdone hnb)
          fun _ => ih hiu (by rw [hevents, hregBase]; exact hwf) ?_).mono ?_ <;>
          rw [hevents, List.length_cons] <;> omega
      · obtain ⟨u, hstep, hiu, hevents, hregBase, hleft, hdone⟩ :=
          step_of_busy_event he (hwf e List.mem_cons_self) hw hi hb
        have hwfu : ∀ e' ∈ u.events, e'.wf u.regBase = true := by
          rw [hevents, hregBase]
          exact fun e' he' => hwf e' (List.mem_cons_of_mem _ he')
        refine (State.RunsToEnd.after (run_succ 0 hstep) hiu (by simp +contextual [hevents, he])
          (fun hnb hreset => hdone hnb (hreset e (by simp [he]))) fun _ => ih hiu hwfu (by rw [hevents]; omega)).mono ?_
        rw [hevents, List.length_cons]
        omega

/-- Settles O52: `runsToEnd_of_noEvents` and `runsToEnd_of_wf`. -/
theorem sequenceAlwaysEnds : Obligations.SequenceAlwaysEnds := by
  unfold Obligations.SequenceAlwaysEnds
  refine ⟨fun s hi he => ?_, fun s hi hwf => runsToEnd_of_wf hi hwf le_rfl⟩
  obtain ⟨n, hn, t, hrun, hnb, hidle, hdone⟩ := runsToEnd_of_noEvents hi he le_rfl
  exact ⟨n, hn, t, hrun, hnb, hidle, fun hb => hdone hb (by simp [he])⟩

theorem run_wait {n : Nat} {s : State} {rest : List Event} (hi : s.Inv) (he : s.events = .wait :: rest)
    (hn : s.stepsLeft ≤ n) : ∃ m t, Host.Core.run Sys2Proof.core m s = .next t
      ∧ t.events = rest ∧ t.status.busy = false ∧ t.reply = .reg t.status.word := by
  induction n generalizing s with
  | zero =>
    cases hb : s.status.busy
    · exact ⟨1, _, run_succ 0 (step_wait_notBusy he hb), rfl, hb, rfl⟩
    · exact absurd hn (State.stepsLeft_pos (hi.phase_ne_idle hb)).not_ge
  | succ n ih =>
    cases hb : s.status.busy
    · exact ⟨1, _, run_succ 0 (step_wait_notBusy he hb), rfl, hb, rfl⟩
    · obtain ⟨u, hrun, hiu, hevents, -, hleft, -⟩ := run_wait_busy he hi hb
      obtain ⟨m, t, ht, hend⟩ := ih hiu hevents (by omega)
      exact ⟨2 + m, t, (run_add m hrun).trans ht, hend⟩

/-- Settles O53: every poll while BUSY = 1 lets a turn pass (`run_wait`), and the last one returns STATUS. -/
theorem waitEndsWithBusyZero : Obligations.WaitEndsWithBusyZero := by
  unfold Obligations.WaitEndsWithBusyZero
  intro s rest hi he
  obtain ⟨m, t, hrun, hevents, hnb, hreply⟩ := run_wait hi he le_rfl
  obtain ⟨hbusy, -⟩ := t.status.word_fields
  exact ⟨m, t, hrun, hevents, hnb, hreply, hbusy.trans hnb⟩

/-! ## A host write just before the engine's read -/

/-- Settles O55: the write leaves image memory with the word (`Memory.readWord_writeWord`), and the turn after it is
the read step of its phase. -/
theorem hostWriteIsSeenByTheNextRead : Obligations.HostWriteIsSeenByTheNextRead := by
  unfold Obligations.HostWriteIsSeenByTheNextRead
  intro s a w rest hi hp hok he
  have hwrite : step s = .next { s with events := .engine :: rest, mem := s.mem.writeWord a w } := by
    rw [step, he]
    rfl
  have hturn : step { s with events := .engine :: rest, mem := s.mem.writeWord a w } = .next _ := rfl
  have hread := State.engineStep_of_read (s := { s with events := rest, mem := s.mem.writeWord a w }) hp hok
  rw [Memory.readWord_writeWord hi.memory] at hread
  refine ⟨State.engineStep { s with events := rest, mem := s.mem.writeWord a w },
    (run_succ 1 hwrite).trans (run_succ 0 hturn), State.engineStep_events _, fun hphase hk => ?_,
    fun hphase hk hidx => ?_, fun hphase => ?_, ?_⟩
  · have hword : s.bodyWord w = w := if_neg (by rintro ⟨hk', hidx⟩; rcases hk with hk | hk <;> simp_all)
    rw [hread, State.afterRead_body (by exact hphase), lanesFed_eq_feed]
    exact ⟨congrArg (s.acc + ·) hword, congrArg s.lanes.feed hword⟩
  · have hword : s.bodyWord w = s.len := if_pos ⟨hk, hidx⟩
    rw [hread, State.afterRead_body (by exact hphase), lanesFed_eq_feed]
    exact ⟨congrArg (s.acc + ·) hword, congrArg s.lanes.feed hword⟩
  · rw [hread, State.afterRead_rdck (by exact hphase)]
    rfl
  · rintro (hphase | hphase)
    · rw [hread, State.afterRead_crclo (by exact hphase), lanesFed_eq_feed]
      rfl
    · rw [hread, State.afterRead_crchi (by exact hphase), lanesFed_eq_feed]
      rfl

end Sys2Proof.Machine
end

section
/-! PROOFS. The accesses of a sequence (20_memory.md R68, R70): each phase has a list of accesses still to come, and
the engine's turn takes its own off the front. -/

namespace Sys2Proof.Machine

/-! ## The accesses still to come -/

/-- The accesses after the body, in order (43_sequencer.md R197 to R203). -/
def State.tailAccesses (s : State) : SeqKind → List (Word × Dir)
  | .none => []
  | .verify =>
    [(s.imageAddr (s.len.toNat - 12), .read), (s.imageAddr (s.len.toNat - 8), .read),
      (s.imageAddr (s.len.toNat - 4), .read)]
  | .patch =>
    [(s.imageAddr 4, .write), (s.imageAddr (s.len.toNat - 12), .write),
      (s.imageAddr (s.len.toNat - 8), .write), (s.imageAddr (s.len.toNat - 4), .write)]

theorem State.sequenceAccesses_eq (s : State) (k : SeqKind) :
    s.sequenceAccesses k
      = ((List.range s.bodyLength).map fun j => (s.imageAddr (4 * j), Dir.read)) ++ s.tailAccesses k := by
  cases k <;> rfl

/-- The body reads still to come. -/
def State.bodyAccessesLeft (s : State) : List (Word × Dir) :=
  (List.range s.bodyWordsLeft).map fun j => (s.imageAddr (s.idx.toNat + 4 * j), Dir.read)

/-- The accesses a running sequence has still to make. -/
def State.accessesLeft (s : State) : List (Word × Dir) :=
  match s.phase with
  | .idle => []
  | .body => s.bodyAccessesLeft ++ s.tailAccesses s.status.last
  | .rdck => s.tailAccesses .verify
  | .crclo => (s.tailAccesses .verify).drop 1
  | .crchi => (s.tailAccesses .verify).drop 2
  | .lenw => s.tailAccesses .patch
  | .wck => (s.tailAccesses .patch).drop 1
  | .wlo => (s.tailAccesses .patch).drop 2
  | .whi => (s.tailAccesses .patch).drop 3

theorem State.accessesLeft_idle {s : State} (hp : s.phase = .idle) : s.accessesLeft = [] := by
  simp only [State.accessesLeft, hp]

theorem State.accessesLeft_startSequence (s : State) (k : SeqKind) :
    (s.startSequence k).accessesLeft = s.sequenceAccesses k := by
  have hbody : (s.startSequence k).bodyAccessesLeft
      = (List.range s.bodyLength).map fun j => (s.imageAddr (4 * j), Dir.read) := by
    simp [State.bodyAccessesLeft, State.bodyWordsLeft, State.bodyLength, State.imageAddr]
  rw [State.sequenceAccesses_eq, ← hbody]
  cases k <;> rfl

/-- While body words are left the next read stands first. -/
theorem State.bodyAccessesLeft_cons {s : State} (hlt : s.idx.toNat + 12 < s.len.toNat)
    (hidx : s.idx.toNat % 4 = 0) (hlen : s.len.toNat % 4 = 0) (w : Word) :
    s.bodyAccessesLeft = (s.base + s.idx, Dir.read) :: (s.bodyReadStep w).bodyAccessesLeft := by
  have hnext : (s.idx + 4).toNat = s.idx.toNat + 4 := by bv_omega
  have haddr : ∀ j, (s.bodyReadStep w).imageAddr (s.idx.toNat + 4 + 4 * j) = s.imageAddr (s.idx.toNat + 4 * (j + 1)) :=
    fun j => congrArg s.imageAddr (by omega)
  simp only [State.bodyAccessesLeft, ← s.bodyWordsLeft_bodyReadStep hlt hidx hlen w, List.range_succ_eq_map,
    List.map_cons, List.map_map, State.bodyReadStep_idx, hnext, s.base_add_eq_imageAddr s.idx, haddr]
  rfl

/-- The access on the port is the first of those still to come. -/
theorem State.Inv.accessesLeft_of_portAccess {s : State} {x : Access} (hi : s.Inv) (hx : s.portAccess = some x) :
    s.accessesLeft = (x.addr, x.dir) :: s.accessesLeft.tail := by
  have hrun := hi.running_of_portAccess hx
  have hmin := hrun.twelve_le_len
  have h12 : s.base + s.len - 12 = s.imageAddr (s.len.toNat - 12) := State.fromEnd_eq_imageAddr hmin
  have h8 : s.base + s.len - 8 = s.imageAddr (s.len.toNat - 8) := State.fromEnd_eq_imageAddr (by simp; omega)
  have h4 : s.base + s.len - 4 = s.imageAddr (s.len.toNat - 4) := State.fromEnd_eq_imageAddr (by simp; omega)
  cases hp : s.phase
  case idle => exact absurd hp (State.phase_ne_idle_of_portAccess hx)
  case body =>
    obtain ⟨hidx, hle⟩ := hrun.bodyOffset hp
    rcases Nat.lt_or_eq_of_le hle with hlt | heq
    · cases (State.portAccess_body hp hlt).symm.trans hx
      simp only [State.accessesLeft, hp, s.bodyAccessesLeft_cons hlt hidx hrun.lengthMultiple 0]
      rfl
    · simp [State.portAccess_bodyEnd hp heq] at hx
  case rdck =>
    cases (State.portAccess_rdck hp).symm.trans hx
    simp only [State.accessesLeft, hp, Access.addr, Access.dir, h12]
    rfl
  case crclo =>
    cases (State.portAccess_crclo hp).symm.trans hx
    simp only [State.accessesLeft, hp, Access.addr, Access.dir, h8]
    rfl
  case crchi =>
    cases (State.portAccess_crchi hp).symm.trans hx
    simp only [State.accessesLeft, hp, Access.addr, Access.dir, h4]
    rfl
  case lenw =>
    cases (State.portAccess_lenw hp).symm.trans hx
    simp only [State.accessesLeft, hp, Access.addr, Access.dir, s.base_add_eq_imageAddr 4]
    rfl
  case wck =>
    cases (State.portAccess_wck hp).symm.trans hx
    simp only [State.accessesLeft, hp, Access.addr, Access.dir, h12]
    rfl
  case wlo =>
    cases (State.portAccess_wlo hp).symm.trans hx
    simp only [State.accessesLeft, hp, Access.addr, Access.dir, h8]
    rfl
  case whi =>
    cases (State.portAccess_whi hp).symm.trans hx
    simp only [State.accessesLeft, hp, Access.addr, Access.dir, h4]
    rfl

theorem State.accessMade_of_ok {s : State} {x : Access} (hx : s.portAccess = some x)
    (he : s.memErrAt x.addr x.dir = false) : s.accessMade = [(x.addr, x.dir)] := by
  simp [State.accessMade, hx, he]

theorem State.accessMade_of_memErr {s : State} {x : Access} (hx : s.portAccess = some x)
    (he : s.memErrAt x.addr x.dir = true) : s.accessMade = [] := by
  simp [State.accessMade, hx, he]

theorem State.accessMade_of_noAccess {s : State} (hx : s.portAccess = none) : s.accessMade = [] := by
  simp [State.accessMade, hx]

/-- A turn that is not the abort takes the access it makes off those still to come; the latch makes none. -/
theorem State.Turn.accessesLeft {s t : State} (ht : s.Turn t) (hi : s.Inv) (hb : s.status.busy = true)
    (hok : t.status.err = .none) : s.accessesLeft = s.accessMade ++ t.accessesLeft := by
  have hrun := hi.running hb
  have step : ∀ {x}, s.portAccess = some x → s.memErrAt x.addr x.dir = false → t.accessesLeft = s.accessesLeft.tail →
      s.accessesLeft = s.accessMade ++ t.accessesLeft := by
    intro x hx he htail
    rw [State.accessMade_of_ok hx he, htail, hi.accessesLeft_of_portAccess hx]
    rfl
  cases ht with
  | fault x hx he => simp at hok
  | bodyRead hp hlt hx he =>
    obtain ⟨hidx, -⟩ := hrun.bodyOffset hp
    refine step hx he ?_
    simp only [State.accessesLeft, State.bodyReadStep_phase, hp,
      s.bodyAccessesLeft_cons hlt hidx hrun.lengthMultiple (s.mem.readWord (s.base + s.idx))]
    rfl
  | bodyLatch hp heq hx =>
    have hbody : s.bodyAccessesLeft = [] := by rw [State.bodyAccessesLeft, State.bodyWordsLeft_end heq]; rfl
    rw [State.accessMade_of_noAccess hx, List.nil_append]
    by_cases hk : s.status.last = .verify
    · have hphase : s.bodyLatchStep.phase = .rdck := by rw [State.bodyLatchStep_phase, if_pos hk]
      simp only [State.accessesLeft, hp, hphase, hk, hbody]
      rfl
    · have hphase : s.bodyLatchStep.phase = .lenw := by rw [State.bodyLatchStep_phase, if_neg hk]
      simp only [State.accessesLeft, hp, hphase, hrun.last_eq_patch hk, hbody]
      rfl
  | rdck hp hx he => exact step hx he (by simp only [State.accessesLeft, hp]; rfl)
  | crclo hp hx he => exact step hx he (by simp only [State.accessesLeft, hp]; rfl)
  | crchi hp hx he => exact step hx he (by simp only [State.accessesLeft, hp]; rfl)
  | lenw hp hx he => exact step hx he (by simp only [State.accessesLeft, hp]; rfl)
  | wck hp hx he => exact step hx he (by simp only [State.accessesLeft, hp]; rfl)
  | wlo hp hx he => exact step hx he (by simp only [State.accessesLeft, hp]; rfl)
  | whi hp hx he => exact step hx he (by simp only [State.accessesLeft, hp]; rfl)

/-- A turn of a running sequence aborts it at the first access still to come, or makes the access and goes on. -/
theorem State.Inv.turn_accesses {s : State} (hi : s.Inv) (hb : s.status.busy = true) :
    (∃ x : Access, s.accessesLeft = (x.addr, x.dir) :: s.accessesLeft.tail ∧ s.memErrAt x.addr x.dir = true
        ∧ s.accessMade = [] ∧ s.engineStep = s.memFault x.addr)
      ∨ (s.accessesLeft = s.accessMade ++ s.engineStep.accessesLeft ∧ s.engineStep.status.err = .none
        ∧ ∀ y ∈ s.accessMade, s.memErrAt y.1 y.2 = false) := by
  rcases s.engineStep_fault_or_err with ⟨x, hx, he, hstep⟩ | herr
  · exact .inl ⟨x, hi.accessesLeft_of_portAccess hx, he, State.accessMade_of_memErr hx he, hstep⟩
  · have hok := herr.trans (hi.running hb).noError
    refine .inr ⟨(hi.turn hb).accessesLeft hi hb hok, hok, ?_⟩
    cases hx : s.portAccess with
    | none => simp [State.accessMade_of_noAccess hx]
    | some x =>
      cases he : s.memErrAt x.addr x.dir
      · simp [State.accessMade_of_ok hx he, he]
      · simp [State.accessMade_of_memErr hx he]

/-! ## The accesses of the engine left to itself -/

theorem State.accessTrace_idle {s : State} (hp : s.phase = .idle) (n : Nat) : s.accessTrace n = [] := by
  induction n with
  | zero => rfl
  | succ n ih =>
    rw [State.accessTrace, State.engineStep_of_idle hp, ih, State.accessMade_of_noAccess (State.portAccess_idle hp)]
    rfl

theorem State.Inv.accessTrace_prefix {s : State} (hi : s.Inv) (n : Nat) : s.accessTrace n <+: s.accessesLeft := by
  induction n generalizing s with
  | zero => exact List.nil_prefix
  | succ n ih =>
    cases hb : s.status.busy
    · rw [State.accessTrace_idle (hi.phase_idle hb)]
      exact List.nil_prefix
    rw [State.accessTrace]
    rcases hi.turn_accesses hb with ⟨x, -, -, hmade, hstep⟩ | ⟨hleft, -, -⟩
    · rw [hmade, hstep, State.accessTrace_idle rfl]
      exact List.nil_prefix
    · rw [hleft]
      exact (List.prefix_append_right_inj _).mpr (ih hi.engineStep)

/-- In as many turns as it has steps left the engine makes the accesses up to the first that `MEM_ERR` flags. -/
theorem State.Inv.accessTrace_eq_takeWhile {s : State} (hi : s.Inv) {n : Nat} (hn : s.stepsLeft ≤ n) :
    s.accessTrace n = s.accessesLeft.takeWhile fun x => !s.memErrAt x.1 x.2 := by
  induction n generalizing s with
  | zero =>
    cases hb : s.status.busy
    · rw [State.accessesLeft_idle (hi.phase_idle hb)]
      rfl
    · exact absurd hn (State.stepsLeft_pos (hi.phase_ne_idle hb)).not_ge
  | succ n ih =>
    cases hb : s.status.busy
    · rw [State.accessTrace_idle (hi.phase_idle hb), State.accessesLeft_idle (hi.phase_idle hb)]
      rfl
    have hlt := hi.stepsLeft_engineStep_lt hb
    rw [State.accessTrace]
    rcases hi.turn_accesses hb with ⟨x, hleft, herr, hmade, hstep⟩ | ⟨hleft, -, hok⟩
    · rw [hmade, hstep, State.accessTrace_idle rfl, hleft, List.takeWhile_cons_of_neg (by simp [herr])]
      rfl
    · rw [hleft, List.takeWhile_append_of_pos (fun y hy => by simp [hok y hy]), ih hi.engineStep (by omega)]
      simp only [State.engineStep_memErrAt]

/-! ## The accesses under every interleaving -/

/-- A run from a state with no running sequence is over. -/
theorem TracedRun.of_notBusy {s u : State} {trace : List (Word × Dir)} (h : TracedRun s trace u)
    (hb : s.status.busy = false) : trace = [] ∧ u = s := by
  cases h with
  | here _ => exact ⟨rfl, rfl⟩
  | turn _ _ _ _ hb' => simp [hb] at hb'
  | other _ _ _ _ hb' => simp [hb] at hb'

/-- A run makes the first of the accesses still to come; when the sequence has ended it made all of them, or those
before the one that failed. -/
theorem TracedRun.accesses {s u : State} {trace : List (Word × Dir)} (h : TracedRun s trace u) (hi : s.Inv) :
    trace <+: s.accessesLeft
      ∧ (s.status.busy = true → u.status.busy = false →
        (u.status.err = .none ∧ trace = s.accessesLeft)
        ∨ (u.status.err = .memFault ∧ ∃ d, trace ++ [(u.faddr, d)] <+: s.accessesLeft)) := by
  induction h with
  | here s => exact ⟨List.nil_prefix, fun hb hnb => by simp [hb] at hnb⟩
  | turn s t u trace hb he hstep htail ih =>
    obtain ⟨hprefix, hend⟩ := ih (hi.step hstep)
    obtain ⟨rest, rfl⟩ := step_eq_engineStep he hstep
    rcases hi.turn_accesses hb with ⟨x, hleft, -, hmade, hx⟩ | ⟨hleft, hok, -⟩
    · have hnb : s.engineStep.status.busy = false := by rw [hx]; rfl
      obtain ⟨rfl, rfl⟩ := htail.of_notBusy hnb
      rw [hmade]
      refine ⟨List.nil_prefix, fun _ _ => .inr ⟨by simp [hx], x.dir, ?_⟩⟩
      rw [hleft]
      simp [hx]
    · rw [hleft]
      refine ⟨(List.prefix_append_right_inj _).mpr hprefix, fun _ hub => ?_⟩
      cases hb' : s.engineStep.status.busy
      · obtain ⟨rfl, rfl⟩ := htail.of_notBusy hb'
        exact .inl ⟨hok, by rw [State.accessesLeft_idle (hi.engineStep.phase_idle hb')]⟩
      · rcases hend hb' hub with ⟨hnone, hall⟩ | ⟨hfault, d, hd⟩
        · exact .inl ⟨hnone, congrArg (s.accessMade ++ ·) hall⟩
        · refine .inr ⟨hfault, d, ?_⟩
          rw [List.append_assoc]
          exact (List.prefix_append_right_inj _).mpr hd
  | other s t u trace hb he hr hstep htail ih =>
    obtain ⟨hprefix, hend⟩ := ih (hi.step hstep)
    obtain ⟨o, m, e, f, ev, r, rfl⟩ := step_of_busy_other hb he hr hstep
    exact ⟨hprefix, fun _ => hend hb⟩

/-! ## No access is made twice -/

/-- The offsets of the accesses of a sequence into its image. -/
def State.accessOffsets (s : State) (k : SeqKind) : List (Nat × Dir) :=
  ((List.range s.bodyLength).map fun j => (4 * j, Dir.read))
    ++ match k with
      | .none => []
      | .verify => [(s.len.toNat - 12, .read), (s.len.toNat - 8, .read), (s.len.toNat - 4, .read)]
      | .patch =>
        [(4, .write), (s.len.toNat - 12, .write), (s.len.toNat - 8, .write), (s.len.toNat - 4, .write)]

theorem State.sequenceAccesses_eq_map (s : State) (k : SeqKind) :
    s.sequenceAccesses k = (s.accessOffsets k).map fun p => (s.imageAddr p.1, p.2) := by
  cases k <;> simp [State.sequenceAccesses, State.accessOffsets, Function.comp_def]

theorem State.accessOffsets_lt {s : State} {k : SeqKind} (hk : k = .verify ∨ k = .patch) (ha : s.accepts k) :
    ∀ p ∈ s.accessOffsets k, p.1 < s.len.toNat := by
  obtain ⟨-, -, hmin, -⟩ := ha
  rintro p hp
  rcases hk with rfl | rfl <;> simp [State.accessOffsets, State.bodyLength, SeqKind.minLen] at hp hmin
  · rcases hp with ⟨j, hj, rfl⟩ | rfl | rfl | rfl <;> simp <;> omega
  · rcases hp with ⟨j, hj, rfl⟩ | rfl | rfl | rfl | rfl <;> simp <;> omega

theorem State.accessOffsets_nodup {s : State} {k : SeqKind} (hk : k = .verify ∨ k = .patch) (ha : s.accepts k) :
    (s.accessOffsets k).Nodup := by
  obtain ⟨-, -, hmin, -⟩ := ha
  have hbody : ((List.range s.bodyLength).map fun j => (4 * j, Dir.read)).Nodup :=
    List.Nodup.map (fun i j h => by simpa using h) List.nodup_range
  rcases hk with rfl | rfl <;> simp only [SeqKind.minLen] at hmin
  · refine List.Nodup.append hbody (by simp; omega) ?_
    intro p hp hp'
    simp [State.bodyLength] at hp hp'
    obtain ⟨j, hj, rfl⟩ := hp
    simp at hp'
    omega
  · refine List.Nodup.append hbody (by simp; omega) ?_
    intro p hp hp'
    simp at hp hp'
    obtain ⟨j, hj, rfl⟩ := hp
    simp at hp'

theorem State.sequenceAccesses_nodup {s : State} {k : SeqKind} (hk : k = .verify ∨ k = .patch) (ha : s.accepts k) :
    (s.sequenceAccesses k).Nodup := by
  have hlt := State.accessOffsets_lt hk ha
  have hnodup := State.accessOffsets_nodup hk ha
  obtain ⟨-, -, -, hrange⟩ := ha
  rw [State.sequenceAccesses_eq_map]
  refine List.Nodup.map_on (fun p hp q hq h => ?_) hnodup
  obtain ⟨haddr, hdir⟩ := Prod.mk.inj h
  have haddr' := congrArg BitVec.toNat haddr
  rw [State.toNat_imageAddr hrange (hlt p hp), State.toNat_imageAddr hrange (hlt q hq)] at haddr'
  exact Prod.ext (by omega) hdir

/-- An accepted command starts its sequence, whichever of the two it is. -/
theorem exec_sequence_of_accepts {s : State} {k : SeqKind} {i : Instr}
    (hk : (k = .verify ∧ i = .verify) ∨ (k = .patch ∧ i = .patch)) (ha : s.accepts k) :
    exec i s = .next ((s.raiseError .none).startSequence k) := by
  rcases hk with ⟨rfl, rfl⟩ | ⟨rfl, rfl⟩
  · exact exec_of_accepts (minimum := Config.minLenVerify) rfl rfl ha
  · exact exec_of_accepts (minimum := Config.minLenPatch) rfl rfl ha

/-- Settles O54: the accesses still to come at the start are the listed ones, no two of them alike
(`State.sequenceAccesses_nodup`); the engine left to itself makes them up to the first flagged one
(`State.Inv.accessTrace_eq_takeWhile`), and every interleaving makes them in order (`TracedRun.accesses`). -/
theorem sequenceMakesExactlyItsAccesses : Obligations.SequenceMakesExactlyItsAccesses := by
  unfold Obligations.SequenceMakesExactlyItsAccesses
  intro s t k i hk hi ha h
  cases (exec_sequence_of_accepts hk ha).symm.trans h
  have hk' : k = .verify ∨ k = .patch := hk.imp And.left And.left
  have hi' := hi.startSequence hk' ha
  have hleft : ((s.raiseError .none).startSequence k).accessesLeft = s.sequenceAccesses k :=
    State.accessesLeft_startSequence _ k
  refine ⟨State.sequenceAccesses_nodup hk' ha, fun n => hleft ▸ hi'.accessTrace_prefix n, fun n hn => ?_,
    fun trace u hrun => ?_⟩
  · rw [← hleft]
    refine hi'.accessTrace_eq_takeWhile ?_
    rw [State.stepsLeft_startSequence]
    have hbody : s.bodyLength = (s.len.toNat - 12) / 4 := rfl
    rw [hbody] at hn
    rw [State.raiseError_len]
    split <;> omega
  · obtain ⟨hprefix, hend⟩ := hrun.accesses hi'
    rw [hleft] at hprefix hend
    exact ⟨hprefix, hend rfl⟩

end Sys2Proof.Machine
end

section
/-! PROOFS. What a running sequence has computed so far, phase by phase, under every interleaving that leaves its image
alone (43_sequencer.md section 7). -/

namespace Sys2Proof.Machine

/-! ## The lanes of a list of words -/

theorem Lanes.foldl_feed (ws : List Word) (ls : Lanes) :
    ws.foldl Lanes.feed ls =
      { l0 := (ws.map fun w => wordByte w 0).foldl laneStep ls.l0
        l1 := (ws.map fun w => wordByte w 1).foldl laneStep ls.l1
        l2 := (ws.map fun w => wordByte w 2).foldl laneStep ls.l2
        l3 := (ws.map fun w => wordByte w 3).foldl laneStep ls.l3 } := by
  induction ws generalizing ls with
  | nil => rfl
  | cons w ws ih => exact ih (ls.feed w)

/-- The first `j` words of the body as the sequence of kind `k` sums them. -/
def State.bodyWords (s : State) (k : SeqKind) (j : Nat) : List Word := (List.range j).map (s.bodyWordAt k)

theorem State.bodyWords_succ (s : State) (k : SeqKind) (j : Nat) :
    s.bodyWords k (j + 1) = s.bodyWords k j ++ [s.bodyWordAt k j] := by
  simp [State.bodyWords, List.range_succ]

theorem State.bodySum_eq (s : State) (k : SeqKind) : s.bodySum k = (s.bodyWords k s.bodyLength).sum := rfl

theorem State.wordByte_bodyWordAt (s : State) (k : SeqKind) (j : Nat) {i : Nat} (hi : i < 4) :
    wordByte (s.bodyWordAt k j) i = s.bodyByteAt k j i := by
  unfold State.bodyWordAt State.bodyByteAt
  split
  · rfl
  · rw [Memory.wordByte_readWord _ _ hi, State.imageAddr_add]

theorem State.map_wordByte_bodyWords (s : State) (k : SeqKind) {i : Nat} (hi : i < 4) :
    ((s.bodyWords k s.bodyLength).map fun w => wordByte w i) = s.bodyLaneBytes k i := by
  simp [State.bodyWords, State.bodyLaneBytes, State.wordByte_bodyWordAt s k _ hi]

theorem State.bodyLanes_eq (s : State) (k : SeqKind) :
    s.bodyLanes k = (s.bodyWords k s.bodyLength).foldl Lanes.feed Lanes.init := by
  rw [Lanes.foldl_feed, s.map_wordByte_bodyWords k (by decide), s.map_wordByte_bodyWords k (by decide),
    s.map_wordByte_bodyWords k (by decide), s.map_wordByte_bodyWords k (by decide)]
  rfl

/-- The lanes at the end of a VERIFY are those after the body, fed the two CRC words (43_sequencer.md R198, R199). -/
theorem State.verifyLanes_eq (s : State) :
    s.verifyLanes = ((s.bodyLanes .verify).feed (s.mem.readWord (s.imageAddr (s.len.toNat - 8)))).feed
      (s.mem.readWord (s.imageAddr (s.len.toNat - 4))) := by
  have hlane : ∀ i < 4, s.verifyLane i
      = laneStep (laneStep (laneOver (s.bodyLaneBytes .verify i))
          (wordByte (s.mem.readWord (s.imageAddr (s.len.toNat - 8))) i))
          (wordByte (s.mem.readWord (s.imageAddr (s.len.toNat - 4))) i) := by
    intro i hi
    rw [Memory.wordByte_readWord _ _ hi, Memory.wordByte_readWord _ _ hi, State.imageAddr_add, State.imageAddr_add,
      State.verifyLane, laneOver, List.foldl_append]
    rfl
  rw [State.verifyLanes, hlane 0 (by decide), hlane 1 (by decide), hlane 2 (by decide), hlane 3 (by decide)]
  rfl

/-! ## The memory a PATCH leaves -/

/-- The listed words, written in order. -/
def Memory.writeWords (m : Memory) (ws : List (Word × Word)) : Memory := ws.foldl (fun m w => m.writeWord w.1 w.2) m

theorem Memory.wf_writeWords {m : Memory} (h : m.wf = true) (ws : List (Word × Word)) :
    (m.writeWords ws).wf = true := by
  induction ws generalizing m with
  | nil => exact h
  | cons w ws ih => exact ih (Memory.wf_writeWord h w.1 w.2)

/-- The four writes of a PATCH, in order (43_sequencer.md R200 to R203). -/
def State.patchWrites (s : State) : List (Word × Word) :=
  [(s.imageAddr 4, s.len), (s.imageAddr (s.len.toNat - 12), checksumWord (s.bodySum .patch)),
    (s.imageAddr (s.len.toNat - 8), crcLowWord (s.bodyLanes .patch)),
    (s.imageAddr (s.len.toNat - 4), crcHighWord (s.bodyLanes .patch))]

/-- Image memory once a PATCH over it has made the first `n` of its writes. -/
def State.patchedMem (s : State) (n : Nat) : Memory := s.mem.writeWords (s.patchWrites.take n)

theorem Memory.byteAt_writeWord_congr {m n : Memory} (hm : m.wf = true) (hn : n.wf = true) {x : Word}
    (h : m.byteAt x = n.byteAt x) (a v : Word) : (m.writeWord a v).byteAt x = (n.writeWord a v).byteAt x := by
  by_cases hx : inWord a x
  · obtain ⟨i, hi, rfl⟩ := inWord_iff.mp hx
    rw [Memory.byteAt_writeWord hm a v hi, Memory.byteAt_writeWord hn a v hi]
  · rw [Memory.byteAt_writeWord_of_not_inWord hm a v hx, Memory.byteAt_writeWord_of_not_inWord hn a v hx, h]

/-! ## What the registers and memory hold, by phase -/

/-- The lanes in a phase after the body of a sequence of kind `k` over the image of `s`. -/
def State.lanesAt (s : State) (k : SeqKind) : Phase → Lanes
  | .crchi => (s.bodyLanes k).feed (s.mem.readWord (s.imageAddr (s.len.toNat - 8)))
  | .idle => if k = .verify then s.verifyLanes else s.bodyLanes k
  | _ => s.bodyLanes k

/-- `READCK` in a phase after the body. -/
def State.readckAt (s : State) (k : SeqKind) : Phase → Word
  | .crclo | .crchi => s.mem.readWord (s.imageAddr (s.len.toNat - 12))
  | .idle => if k = .verify then s.mem.readWord (s.imageAddr (s.len.toNat - 12)) else 0
  | _ => 0

/-- `COUNT` in a phase after the body. -/
def State.countAt (s : State) (k : SeqKind) : Phase → Word
  | .crchi => s.len - 8
  | .idle => if k = .verify then s.len - 4 else s.len - 12
  | _ => s.len - 12

/-- The writes made in a phase after the body. -/
def writesMadeAt (k : SeqKind) : Phase → Nat
  | .wck => 1
  | .wlo => 2
  | .whi => 3
  | .idle => if k = .patch then 4 else 0
  | _ => 0

/-- In BODY a sequence of kind `k` over the image of `s0` has summed and fed the words up to IDX. -/
structure State.InBody (s : State) (mayWrite : Word → Prop) (s0 : State) (k : SeqKind) : Prop where
  acc : s.acc = (s0.bodyWords k (s.idx.toNat / 4)).sum
  lanes : s.lanes = (s0.bodyWords k (s.idx.toNat / 4)).foldl Lanes.feed Lanes.init
  readck : s.readck = 0
  mem : ∀ a, ¬ mayWrite a → s.mem.byteAt a = s0.mem.byteAt a

/-- After the body the registers and memory are those of the phase; at the end the verdicts of a VERIFY are the
comparisons they are. -/
structure State.AfterBody (s : State) (mayWrite : Word → Prop) (s0 : State) (k : SeqKind) : Prop where
  acc : s.acc = s0.bodySum k
  pck : s.pck = checksumWord (s0.bodySum k)
  plo : s.plo = crcLowWord (s0.bodyLanes k)
  phi : s.phi = crcHighWord (s0.bodyLanes k)
  lanes : s.lanes = s0.lanesAt k s.phase
  readck : s.readck = s0.readckAt k s.phase
  count : s.count = s0.countAt k s.phase
  mem : ∀ a, ¬ mayWrite a → s.mem.byteAt a = (s0.patchedMem (writesMadeAt k s.phase)).byteAt a
  ended : s.phase = .idle → s.status.done = true ∧ (k = .verify →
    s.status.ckOk = decide (s0.mem.readWord (s0.imageAddr (s0.len.toNat - 12)) = checksumWord (s0.bodySum .verify))
      ∧ s.status.crcOk = decide (s0.verifyLanes = ⟨0, 0, 0, 0⟩))

/-- `s` is on its way through a sequence of kind `k` over the image of `s0`, or at its end; one that an access
failed is let go. -/
structure State.Follows (s : State) (mayWrite : Word → Prop) (s0 : State) (k : SeqKind) : Prop where
  base : s.base = s0.base
  len : s.len = s0.len
  last : s.status.last = k
  body : s.phase = .body → s.InBody mayWrite s0 k
  afterBody : s.phase ≠ .body → s.status.err = .none → s.AfterBody mayWrite s0 k

/-! ## A turn goes on -/

/-- One more write of a PATCH. -/
theorem State.patchedMem_succ {s : State} {n : Nat} {w : Word × Word} (h : s.patchWrites[n]? = some w) :
    s.patchedMem (n + 1) = (s.patchedMem n).writeWord w.1 w.2 := by
  simp only [State.patchedMem, Memory.writeWords, List.take_add_one, h, Option.toList_some, List.foldl_append,
    List.foldl_cons, List.foldl_nil]

/-- A word of the image reads as in `s0` when every byte of the image does. -/
theorem Memory.readWord_imageAddr_eq {m : Memory} {mayWrite : Word → Prop} {s0 : State} {off : Nat}
    (hmem : ∀ a, ¬ mayWrite a → m.byteAt a = s0.mem.byteAt a) (himg : ∀ a, mayWrite a → ¬ s0.inImage a)
    (hr : s0.base.toNat + s0.len.toNat ≤ 2 ^ 32) (ho : off + 4 ≤ s0.len.toNat) :
    m.readWord (s0.imageAddr off) = s0.mem.readWord (s0.imageAddr off) := by
  refine Memory.readWord_congr fun i hi => hmem _ fun hw => himg _ hw ?_
  rw [State.imageAddr_add]
  exact State.inImage_imageAddr hr (by omega)

section
variable {mayWrite : Word → Prop} {s0 s t : State} {k : SeqKind}

theorem State.Follows.fromEnd {c : Word} (hf : s.Follows mayWrite s0 k) (hc : c.toNat ≤ s.len.toNat) :
    s.base + s.len - c = s0.imageAddr (s0.len.toNat - c.toNat) := by
  rw [hf.base, hf.len]
  exact State.fromEnd_eq_imageAddr (hf.len ▸ hc)

/-- The word BODY feeds is the one the closed form sums: at offset 4 PATCH takes `N` (43_sequencer.md R195). -/
theorem State.Follows.bodyWord_eq (hf : s.Follows mayWrite s0 k) (hp : s.phase = .body)
    (himg : ∀ a, mayWrite a → ¬ s0.inImage a) (hr : s0.base.toNat + s0.len.toNat ≤ 2 ^ 32)
    (hidx : s.idx.toNat % 4 = 0) (hlt : s.idx.toNat + 12 < s.len.toNat) :
    s.bodyWord (s.mem.readWord (s.base + s.idx)) = s0.bodyWordAt k (s.idx.toNat / 4) := by
  have hlen := hf.len
  have haddr : s.base + s.idx = s0.imageAddr (4 * (s.idx.toNat / 4)) := by
    rw [hf.base, State.base_add_eq_imageAddr, Nat.mul_div_cancel' (Nat.dvd_of_mod_eq_zero hidx)]
  have hread : s.mem.readWord (s.base + s.idx) = s0.mem.readWord (s0.imageAddr (4 * (s.idx.toNat / 4))) := by
    rw [haddr]
    exact Memory.readWord_imageAddr_eq (hf.body hp).mem himg hr (by rw [← hlen]; omega)
  have hcond : (s.status.last = .patch ∧ s.idx = Config.lenFieldOff) ↔ (k = .patch ∧ s.idx.toNat / 4 = 1) := by
    rw [hf.last, ← BitVec.toNat_inj]
    exact and_congr_right fun _ => by simp only [BitVec.ofNat_eq_ofNat, BitVec.toNat_ofNat]; omega
  exact if_congr hcond hlen hread

/-- In BODY a read feeds the next word. -/
theorem State.Follows.bodyRead (hf : s.Follows mayWrite s0 k) (hp : s.phase = .body)
    {m : Memory} (hmem : ∀ a, ¬ mayWrite a → m.byteAt a = s.mem.byteAt a) {w : Word}
    (hlt : s.idx.toNat + 12 < s.len.toNat) (hw : s.bodyWord w = s0.bodyWordAt k (s.idx.toNat / 4)) :
    State.Follows { s.bodyReadStep w with mem := m } mayWrite s0 k := by
  obtain ⟨hacc, hlanes, hreadck, hbody⟩ := hf.body hp
  have hnext : (s.idx + 4).toNat / 4 = s.idx.toNat / 4 + 1 := by bv_omega
  refine ⟨hf.base, hf.len, hf.last, fun _ => ⟨?_, ?_, hreadck, fun a ha => (hmem a ha).trans (hbody a ha)⟩,
    fun hne => absurd hp hne⟩
  · simp only [State.bodyReadStep_acc, State.bodyReadStep_idx, hnext, State.bodyWords_succ, List.sum_append, hw, hacc]
    simp
  · simp only [State.bodyReadStep_lanes, State.bodyReadStep_idx, hnext, State.bodyWords_succ, List.foldl_append, hw,
      hlanes]
    rfl

/-- The latch forms the patch words of the whole body. -/
theorem State.Follows.bodyLatch (hf : s.Follows mayWrite s0 k) (hp : s.phase = .body)
    (heq : s.idx.toNat + 12 = s.len.toNat) (hcount : s.count = s.idx) : s.bodyLatchStep.Follows mayWrite s0 k := by
  have hlen := hf.len
  obtain ⟨hacc, hlanes, hreadck, hmem⟩ := hf.body hp
  have hj : s.idx.toNat / 4 = s0.bodyLength := by
    rw [State.bodyLength, ← hlen]
    omega
  rw [hj, ← State.bodySum_eq] at hacc
  rw [hj, ← State.bodyLanes_eq] at hlanes
  have hcount' : s.count = s0.len - 12 := by
    rw [hcount, ← hlen]
    bv_omega
  have hphase : s.bodyLatchStep.phase = .rdck ∨ s.bodyLatchStep.phase = .lenw := by
    rw [State.bodyLatchStep_phase]
    split <;> simp
  refine ⟨hf.base, hlen, hf.last, fun h => ?_, fun _ _ => ⟨hacc, congrArg checksumWord hacc,
    congrArg crcLowWord hlanes, congrArg crcHighWord hlanes, ?_, ?_, ?_, fun a ha => ?_, fun h => ?_⟩⟩ <;>
    rcases hphase with h' | h'
  case refine_1.inl | refine_1.inr => cases h'.symm.trans h
  case refine_6.inl | refine_6.inr => cases h'.symm.trans h
  all_goals rw [h']
  case refine_2.inl | refine_2.inr => exact hlanes
  case refine_3.inl | refine_3.inr => exact hreadck
  case refine_4.inl | refine_4.inr => exact hcount'
  case refine_5.inl | refine_5.inr => exact hmem a ha

/-- The turn of a running sequence that follows `s0` follows it on. -/
theorem State.Turn.follows (ht : s.Turn t) (hi : s.Inv) (hb : s.status.busy = true) (hf : s.Follows mayWrite s0 k)
    (hm0 : s0.mem.wf = true) (himg : ∀ a, mayWrite a → ¬ s0.inImage a)
    (hquiet : ∀ a, ¬ mayWrite a → (∀ x v, s.portAccess ≠ some (.write x v)) → t.mem.byteAt a = s.mem.byteAt a) :
    t.Follows mayWrite s0 k := by
  have hrun := hi.running hb
  have hbase := hf.base
  have hlen := hf.len
  have hlast := hf.last
  have hr : s0.base.toNat + s0.len.toNat ≤ 2 ^ 32 := by rw [← hbase, ← hlen]; exact hrun.range
  have hmin : 12 ≤ s.len.toNat := hrun.twelve_le_len
  have hwf : ∀ n, (s0.patchedMem n).wf = true := fun n => Memory.wf_writeWords hm0 _
  have hafter : s.phase ≠ .body → s.AfterBody mayWrite s0 k := fun hp => hf.afterBody hp hrun.noError
  have h12 : s.base + s.len - 12 = s0.imageAddr (s0.len.toNat - 12) := hf.fromEnd hmin
  have h8 : s.base + s.len - 8 = s0.imageAddr (s0.len.toNat - 8) := hf.fromEnd (by simp; omega)
  have h4 : s.base + s.len - 4 = s0.imageAddr (s0.len.toNat - 4) := hf.fromEnd (by simp; omega)
  have hword : (∀ a, ¬ mayWrite a → s.mem.byteAt a = s0.mem.byteAt a) → ∀ c, 4 ≤ c → c ≤ 12 →
      s.mem.readWord (s0.imageAddr (s0.len.toNat - c)) = s0.mem.readWord (s0.imageAddr (s0.len.toNat - c)) :=
    fun hmem c hc hc' => Memory.readWord_imageAddr_eq hmem himg hr (by rw [← hlen]; omega)
  cases ht with
  | fault x hx he => exact ⟨hbase, hlen, hlast, by simp, by simp⟩
  | bodyRead hp hlt hx he =>
    obtain ⟨hidx, -⟩ := hrun.bodyOffset hp
    exact hf.bodyRead hp (fun a ha => hquiet a ha (by simp [hx])) hlt (hf.bodyWord_eq hp himg hr hidx hlt)
  | bodyLatch hp heq hx => exact hf.bodyLatch hp heq (hrun.bodyCount hp)
  | rdck hp hx he =>
    obtain ⟨hacc, hpck, hplo, hphi, hlanes, hreadck, hcount, hmem, -⟩ := hafter (by simp [hp])
    rw [hp] at hlanes hcount hmem
    exact ⟨hbase, hlen, hlast, by simp, fun _ _ => ⟨hacc, hpck, hplo, hphi, hlanes,
      (congrArg _ h12).trans (hword hmem 12 (by decide) (by decide)), hcount,
      fun a ha => (hquiet a ha (by simp [hx])).trans (hmem a ha), by simp⟩⟩
  | crclo hp hx he =>
    obtain ⟨hacc, hpck, hplo, hphi, hlanes, hreadck, hcount, hmem, -⟩ := hafter (by simp [hp])
    rw [hp] at hlanes hreadck hcount hmem
    have hfed : s.lanes.feed (s.mem.readWord (s.base + s.len - 8)) = s0.lanesAt k .crchi := by
      rw [h8, hword hmem 8 (by decide) (by decide), hlanes]
      rfl
    have hcount' : s.count + 4 = s0.len - 8 := by
      rw [show s.count = s0.len - 12 from hcount]
      bv_omega
    exact ⟨hbase, hlen, hlast, by simp, fun _ _ => ⟨hacc, hpck, hplo, hphi, hfed, hreadck, hcount',
      fun a ha => (hquiet a ha (by simp [hx])).trans (hmem a ha), by simp⟩⟩
  | crchi hp hx he =>
    have hk : k = .verify := hlast.symm.trans (hrun.verifyPhase (.inr (.inr hp)))
    subst hk
    obtain ⟨hacc, hpck, hplo, hphi, hlanes, hreadck, hcount, hmem, -⟩ := hafter (by simp [hp])
    rw [hp] at hlanes hreadck hcount hmem
    have hfed : s.lanes.feed (s.mem.readWord (s.base + s.len - 4)) = s0.verifyLanes := by
      rw [h4, hword hmem 4 (by decide) (by decide), hlanes, State.verifyLanes_eq]
      rfl
    have hcount' : s.count + 4 = s0.len - 4 := by
      rw [show s.count = s0.len - 8 from hcount]
      bv_omega
    refine ⟨hbase, hlen, hlast, by simp, fun _ _ => ⟨hacc, hpck, hplo, hphi, hfed, hreadck, hcount',
      fun a ha => (hquiet a ha (by simp [hx])).trans (hmem a ha), fun _ => ⟨rfl, fun _ => ⟨?_, ?_⟩⟩⟩⟩
    · exact (s.checksumVerdict_eq_decide).trans (by rw [hreadck, hpck]; rfl)
    · exact (congrArg Lanes.allZero hfed).trans (Lanes.allZero_eq_decide_eq _)
  | lenw hp hx he =>
    obtain ⟨hacc, hpck, hplo, hphi, hlanes, hreadck, hcount, hmem, -⟩ := hafter (by simp [hp])
    rw [hp] at hlanes hreadck hcount hmem
    refine ⟨hbase, hlen, hlast, by simp, fun _ _ => ⟨hacc, hpck, hplo, hphi, hlanes, hreadck, hcount,
      fun a ha => ?_, by simp⟩⟩
    change (s.mem.writeWord (s.base + 4) s.len).byteAt a = (s0.patchedMem 1).byteAt a
    rw [hbase, hlen, State.base_add_eq_imageAddr, State.patchedMem_succ (n := 0) rfl]
    exact Memory.byteAt_writeWord_congr hi.memory (hwf 0) (hmem a ha) _ _
  | wck hp hx he =>
    have hk : k = .patch := hlast.symm.trans (hrun.patchPhase (.inr (.inl hp)))
    subst hk
    obtain ⟨hacc, hpck, hplo, hphi, hlanes, hreadck, hcount, hmem, -⟩ := hafter (by simp [hp])
    rw [hp] at hlanes hreadck hcount hmem
    refine ⟨hbase, hlen, hlast, by simp, fun _ _ => ⟨hacc, hpck, hplo, hphi, hlanes, hreadck, hcount,
      fun a ha => ?_, by simp⟩⟩
    change (s.mem.writeWord (s.base + s.len - 12) s.pck).byteAt a = (s0.patchedMem 2).byteAt a
    rw [h12, hpck, State.patchedMem_succ (n := 1) rfl]
    exact Memory.byteAt_writeWord_congr hi.memory (hwf 1) (hmem a ha) _ _
  | wlo hp hx he =>
    have hk : k = .patch := hlast.symm.trans (hrun.patchPhase (.inr (.inr (.inl hp))))
    subst hk
    obtain ⟨hacc, hpck, hplo, hphi, hlanes, hreadck, hcount, hmem, -⟩ := hafter (by simp [hp])
    rw [hp] at hlanes hreadck hcount hmem
    refine ⟨hbase, hlen, hlast, by simp, fun _ _ => ⟨hacc, hpck, hplo, hphi, hlanes, hreadck, hcount,
      fun a ha => ?_, by simp⟩⟩
    change (s.mem.writeWord (s.base + s.len - 8) s.plo).byteAt a = (s0.patchedMem 3).byteAt a
    rw [h8, hplo, State.patchedMem_succ (n := 2) rfl]
    exact Memory.byteAt_writeWord_congr hi.memory (hwf 2) (hmem a ha) _ _
  | whi hp hx he =>
    have hk : k = .patch := hlast.symm.trans (hrun.patchPhase (.inr (.inr (.inr hp))))
    subst hk
    obtain ⟨hacc, hpck, hplo, hphi, hlanes, hreadck, hcount, hmem, -⟩ := hafter (by simp [hp])
    rw [hp] at hlanes hreadck hcount hmem
    refine ⟨hbase, hlen, hlast, by simp, fun _ _ => ⟨hacc, hpck, hplo, hphi, hlanes, hreadck, hcount,
      fun a ha => ?_, by simp⟩⟩
    change (s.mem.writeWord (s.base + s.len - 4) s.phi).byteAt a = (s0.patchedMem 4).byteAt a
    rw [h4, hphi, State.patchedMem_succ (n := 3) rfl]
    exact Memory.byteAt_writeWord_congr hi.memory (hwf 3) (hmem a ha) _ _

end

end Sys2Proof.Machine
end

section
/-! PROOFS. The closed forms of VERIFY and PATCH, the round trip and the idempotence (43_sequencer.md R207 to R211). -/

namespace Sys2Proof.Machine

/-! ## Every interleaving that leaves the image alone -/

/-- In a step under a harmless event only the engine's own write changes a byte that no one else may write. -/
theorem step_byteAt_of_harmless {mayWrite : Word → Prop} {s t : State} {a : Word} (hm : s.mem.wf = true)
    (hhead : ∀ e ∈ s.events.head?, harmless mayWrite e) (heff : s.effectsWithin mayWrite) (h : step s = .next t)
    (ha : ¬ mayWrite a) (hquiet : s.engineTurn → ∀ x v, s.portAccess ≠ some (.write x v)) :
    t.mem.byteAt a = s.mem.byteAt a := by
  by_contra hne
  rcases step_byteAt_cases hm h hne with ⟨cells, rest, he, c, hc, rfl⟩ | ⟨b, n, -, c, hc, rfl⟩ | ⟨he, x, v, hx, -⟩
  · have hall : ∀ c ∈ cells, mayWrite c.1 := hhead (.memWrite cells) (by simp [he])
    exact ha (hall c hc)
  · obtain ⟨e, he, hce⟩ := List.mem_flatMap.mp hc
    exact ha (heff e (List.mem_of_mem_filter he) c hce)
  · exact hquiet he x v hx

section
variable {mayWrite : Word → Prop} {s0 s t u : State} {k : SeqKind}

/-- A sequence that follows `s0` does so after every step under a harmless event. -/
theorem State.Follows.step (hf : s.Follows mayWrite s0 k) (hi : s.Inv) (hb : s.status.busy = true)
    (hm0 : s0.mem.wf = true) (himg : ∀ a, mayWrite a → ¬ s0.inImage a)
    (hhead : ∀ e ∈ s.events.head?, harmless mayWrite e) (heff : s.effectsWithin mayWrite) (h : step s = .next t) :
    t.Follows mayWrite s0 k := by
  by_cases he : s.engineTurn
  · have hquiet : ∀ a, ¬ mayWrite a → (∀ x v, s.portAccess ≠ some (.write x v)) →
        t.mem.byteAt a = s.mem.byteAt a := fun a ha hw => step_byteAt_of_harmless hi.memory hhead heff h ha fun _ => hw
    obtain ⟨rest, rfl⟩ := step_eq_engineStep he h
    obtain ⟨hbase, hlen, hlast, hbody, hafter⟩ := (hi.turn hb).follows hi hb hf hm0 himg hquiet
    refine ⟨hbase, hlen, hlast, fun hp => ?_, fun hp herr => ?_⟩
    · obtain ⟨hacc, hlanes, hreadck, hmem⟩ := hbody hp
      exact ⟨hacc, hlanes, hreadck, hmem⟩
    · obtain ⟨hacc, hpck, hplo, hphi, hlanes, hreadck, hcount, hmem, hended⟩ := hafter hp herr
      exact ⟨hacc, hpck, hplo, hphi, hlanes, hreadck, hcount, hmem, hended⟩
  · have hr : ¬ s.resets := by
      rintro ⟨rest, hev⟩
      exact hhead .reset (by simp [hev])
    have hquiet : ∀ a, ¬ mayWrite a → t.mem.byteAt a = s.mem.byteAt a := fun a ha =>
      step_byteAt_of_harmless hi.memory hhead heff h ha fun he' => absurd he' he
    obtain ⟨o, m, e, f, ev, r, rfl⟩ := step_of_busy_other hb he hr h
    refine ⟨hf.base, hf.len, hf.last, fun hp => ?_, fun hp herr => ?_⟩
    · obtain ⟨hacc, hlanes, hreadck, hmem⟩ := hf.body hp
      exact ⟨hacc, hlanes, hreadck, fun a ha => (hquiet a ha).trans (hmem a ha)⟩
    · obtain ⟨hacc, hpck, hplo, hphi, hlanes, hreadck, hcount, hmem, -⟩ := hf.afterBody hp herr
      exact ⟨hacc, hpck, hplo, hphi, hlanes, hreadck, hcount, fun a ha => (hquiet a ha).trans (hmem a ha),
        fun hidle => absurd hidle (hi.phase_ne_idle hb)⟩

/-- The end of a run of a sequence that follows `s0`. -/
theorem SequenceRun.follows (h : SequenceRun mayWrite s u) (hi : s.Inv) (hf : s.Follows mayWrite s0 k)
    (hm0 : s0.mem.wf = true) (himg : ∀ a, mayWrite a → ¬ s0.inImage a) :
    u.Inv ∧ u.status.busy = false ∧ u.Follows mayWrite s0 k := by
  induction h with
  | ended s hnb => exact ⟨hi, hnb, hf⟩
  | next s t u hb hhead heff hstep _ ih =>
    exact ih (hi.step hstep) (hf.step hi hb hm0 himg hhead heff hstep)

theorem State.Follows.startSequence (mayWrite : Word → Prop) (s : State) (k : SeqKind) :
    ((s.raiseError .none).startSequence k).Follows mayWrite s k :=
  ⟨rfl, rfl, rfl, fun _ => ⟨by simp [State.bodyWords], by simp [State.bodyWords], rfl, fun _ _ => rfl⟩,
    fun hp => absurd rfl hp⟩

/-- A sequence that ends without error leaves `STATUS` with DONE, its kind and nothing else but the verdicts and
OVR, and the registers and memory of its end. -/
theorem SequenceRun.closedForm {i : Instr} (hi : s.Inv) (himg : ∀ a, mayWrite a → ¬ s.inImage a)
    (hk : (k = .verify ∧ i = .verify) ∨ (k = .patch ∧ i = .patch)) (ha : s.accepts k) (hexec : exec i s = .next t)
    (hrun : SequenceRun mayWrite t u) (herr : u.status.err = .none) :
    u.Inv ∧ u.phase = .idle ∧ u.AfterBody mayWrite s k
      ∧ u.status = { busy := false, done := true, ckOk := u.status.ckOk, crcOk := u.status.crcOk, ovr := u.status.ovr
                     err := .none, last := k } := by
  cases (exec_sequence_of_accepts hk ha).symm.trans hexec
  obtain ⟨hiu, hnb, hf⟩ := hrun.follows (hi.startSequence (hk.imp And.left And.left) ha)
    (State.Follows.startSequence mayWrite s k) hi.memory himg
  have hidle := hiu.phase_idle hnb
  have hafter := hf.afterBody (by simp [hidle]) herr
  obtain ⟨hdone, -⟩ := hafter.ended hidle
  refine ⟨hiu, hidle, hafter, ?_⟩
  rw [← hnb, ← hdone, ← herr, ← hf.last]

end

/-! ## VERIFY -/

theorem Status.word_of_verify (ck crc ovr : Bool) :
    Status.word { busy := false, done := true, ckOk := ck, crcOk := crc, ovr := ovr, err := .none, last := .verify }
      = 0x00001002 ||| ((BitVec.ofBool ck).setWidth 32 <<< 2) ||| ((BitVec.ofBool crc).setWidth 32 <<< 3)
        ||| ((BitVec.ofBool ovr).setWidth 32 <<< 4) := by
  cases ck <;> cases crc <;> cases ovr <;> rfl

theorem State.four_mul_bodyLength {s : State} {k : SeqKind} (ha : s.accepts k) :
    4 * s.bodyLength = s.len.toNat - 12 := by
  obtain ⟨-, hmul, -, -⟩ := ha
  rw [State.bodyLength]
  omega

/-- Settles O56, from `SequenceRun.closedForm`. -/
theorem verifyClosedForm : Obligations.VerifyClosedForm := by
  unfold Obligations.VerifyClosedForm
  intro mayWrite s t u hi himg ha hexec hrun herr
  obtain ⟨-, hidle, hafter, hstatus⟩ := SequenceRun.closedForm hi himg (.inl ⟨rfl, rfl⟩) ha hexec hrun herr
  obtain ⟨hacc, hpck, hplo, hphi, hlanes, hreadck, hcount, hmem, hended⟩ := hafter
  obtain ⟨-, hverdicts⟩ := hended hidle
  obtain ⟨hck, hcrc⟩ := hverdicts rfl
  rw [hidle] at hlanes hreadck hcount hmem
  rw [State.four_mul_bodyLength ha]
  refine ⟨hacc, hpck, hplo, hphi, hreadck, hlanes, hcount, hck, hcrc, ?_, fun a hin => hmem a fun hw => himg a hw hin⟩
  rw [hstatus]
  exact Status.word_of_verify _ _ _

/-! ## The bytes a PATCH writes -/

theorem Memory.byteAt_writeWords_other {m : Memory} (h : m.wf = true) {ws : List (Word × Word)} {x : Word}
    (hx : ∀ w ∈ ws, ¬ inWord w.1 x) : (m.writeWords ws).byteAt x = m.byteAt x := by
  induction ws generalizing m with
  | nil => rfl
  | cons w ws ih =>
    exact (ih (Memory.wf_writeWord h w.1 w.2) fun v hv => hx v (List.mem_cons_of_mem _ hv)).trans
      (Memory.byteAt_writeWord_of_not_inWord h w.1 w.2 (hx w List.mem_cons_self))

/-- When the words written do not meet, each reads as it was written. -/
theorem Memory.byteAt_writeWords {m : Memory} (h : m.wf = true) {ws : List (Word × Word)}
    (hws : ws.Pairwise fun w v => ∀ x, inWord w.1 x → ¬ inWord v.1 x) {w : Word × Word} (hw : w ∈ ws) {i : Nat}
    (hi : i < 4) : (m.writeWords ws).byteAt (w.1 + BitVec.ofNat 32 i) = wordByte w.2 i := by
  induction ws generalizing m with
  | nil => cases hw
  | cons v ws ih =>
    obtain ⟨hhead, htail⟩ := List.pairwise_cons.mp hws
    rcases List.mem_cons.mp hw with rfl | hmem
    · exact (Memory.byteAt_writeWords_other (Memory.wf_writeWord h _ _)
        fun v hv => hhead v hv _ (inWord_iff.mpr ⟨i, hi, rfl⟩)).trans (Memory.byteAt_writeWord h w.1 w.2 hi)
    · exact ih (Memory.wf_writeWord h _ _) htail hmem

section
variable {s : State} (hr : s.base.toNat + s.len.toNat ≤ 2 ^ 32)
include hr

/-- Words of the image whose places do not meet have no byte in common. -/
theorem State.not_inWord_imageAddr {off b : Nat} (ho : off + 4 ≤ s.len.toNat) (hb : b < s.len.toNat)
    (h : b < off ∨ off + 4 ≤ b) : ¬ inWord (s.imageAddr off) (s.imageAddr b) := by
  intro hin
  obtain ⟨i, hi, heq⟩ := State.exists_offset_of_inWord hin
  have heq' := congrArg BitVec.toNat heq
  rw [State.toNat_imageAddr hr hb, State.toNat_imageAddr hr (by omega)] at heq'
  omega

theorem State.inWord_imageAddr_disjoint {off off' : Nat} (h : off + 4 ≤ off') (ho : off' + 4 ≤ s.len.toNat) (x : Word)
    (hx : inWord (s.imageAddr off) x) : ¬ inWord (s.imageAddr off') x := by
  obtain ⟨i, hi, rfl⟩ := State.exists_offset_of_inWord hx
  exact State.not_inWord_imageAddr hr ho (by omega) (by omega)

end

section
variable {s : State} (ha : s.accepts .patch)
include ha

theorem State.twenty_le_len_of_accepts : 20 ≤ s.len.toNat := by
  obtain ⟨-, -, hmin, -⟩ := ha
  exact hmin

/-- Every word PATCH writes lies in the image, in the length field or past the body. -/
theorem State.patchWrites_offset {w : Word × Word} (hw : w ∈ s.patchWrites) :
    ∃ off, w.1 = s.imageAddr off ∧ off + 4 ≤ s.len.toNat ∧ (off = 4 ∨ s.len.toNat - 12 ≤ off) := by
  have hlen := State.twenty_le_len_of_accepts ha
  simp only [State.patchWrites, List.mem_cons, List.not_mem_nil, or_false] at hw
  rcases hw with rfl | rfl | rfl | rfl
  exacts [⟨_, rfl, by omega, by omega⟩, ⟨_, rfl, by omega, by omega⟩, ⟨_, rfl, by omega, by omega⟩,
    ⟨_, rfl, by omega, by omega⟩]

theorem State.patchWrites_disjoint : s.patchWrites.Pairwise fun w v => ∀ x, inWord w.1 x → ¬ inWord v.1 x := by
  have hlen := State.twenty_le_len_of_accepts ha
  obtain ⟨-, -, -, hr⟩ := ha
  have hdisjoint := fun {off off'} => State.inWord_imageAddr_disjoint (s := s) (off := off) (off' := off') hr
  simp only [State.patchWrites, List.pairwise_cons, List.mem_cons, List.not_mem_nil, or_false, List.Pairwise.nil,
    and_true, forall_eq_or_imp, forall_eq, false_implies, implies_true]
  exact ⟨⟨hdisjoint (by omega) (by omega), hdisjoint (by omega) (by omega), hdisjoint (by omega) (by omega)⟩,
    ⟨hdisjoint (by omega) (by omega), hdisjoint (by omega) (by omega)⟩, hdisjoint (by omega) (by omega)⟩

/-- Image memory `m` holds, in the image, what a finished PATCH leaves there. -/
theorem State.byteAt_of_patched (hm : s.mem.wf = true) {m : Memory}
    (h : ∀ a, s.inImage a → m.byteAt a = (s.patchedMem 4).byteAt a) {w : Word × Word} (hw : w ∈ s.patchWrites)
    {i : Nat} (hi : i < 4) : m.byteAt (w.1 + BitVec.ofNat 32 i) = wordByte w.2 i := by
  obtain ⟨off, haddr, hle, -⟩ := State.patchWrites_offset ha hw
  have hdisjoint := State.patchWrites_disjoint ha
  obtain ⟨-, -, -, hr⟩ := ha
  have hin : s.inImage (w.1 + BitVec.ofNat 32 i) := by
    rw [haddr, State.imageAddr_add]
    exact State.inImage_imageAddr hr (by omega)
  exact (h _ hin).trans (Memory.byteAt_writeWords hm hdisjoint hw hi)

theorem State.readWord_of_patched (hm : s.mem.wf = true) {m : Memory}
    (h : ∀ a, s.inImage a → m.byteAt a = (s.patchedMem 4).byteAt a) {w : Word × Word} (hw : w ∈ s.patchWrites) :
    m.readWord w.1 = w.2 :=
  Memory.readWord_eq_of_bytes fun _ hi => State.byteAt_of_patched ha hm h hw hi

end

/-! ## PATCH -/

theorem Status.word_of_patch (ovr : Bool) :
    Status.word { busy := false, done := true, ckOk := false, crcOk := false, ovr := ovr, err := .none, last := .patch }
      = 0x00002002 ||| ((BitVec.ofBool ovr).setWidth 32 <<< 4) := by
  cases ovr <;> rfl

/-- A verdict is a VERIFY's: after another sequence both are 0 (10_state.md R31, R32). -/
theorem State.Inv.no_verdicts {s : State} (hi : s.Inv) (hk : s.status.last ≠ .verify) :
    s.status.ckOk = false ∧ s.status.crcOk = false := by
  constructor <;> refine Bool.eq_false_iff.mpr fun h => hk ?_
  · exact (hi.verdicts (.inl h)).1
  · exact (hi.verdicts (.inr h)).1

/-- Settles O57, from `SequenceRun.closedForm` and the words a PATCH writes (`State.byteAt_of_patched`). -/
theorem patchClosedForm : Obligations.PatchClosedForm := by
  unfold Obligations.PatchClosedForm
  intro mayWrite s t u hi himg ha hexec hrun herr
  obtain ⟨hiu, hidle, hafter, hstatus⟩ := SequenceRun.closedForm hi himg (.inr ⟨rfl, rfl⟩) ha hexec hrun herr
  obtain ⟨hacc, hpck, hplo, hphi, hlanes, hreadck, hcount, hmem, -⟩ := hafter
  rw [hidle] at hlanes hreadck hcount hmem
  have hlanes' : u.lanes = s.bodyLanes .patch := hlanes
  have hlen := State.twenty_le_len_of_accepts ha
  have hpatched : ∀ a, s.inImage a → u.mem.byteAt a = (s.patchedMem 4).byteAt a := fun a hin =>
    hmem a fun hw => himg a hw hin
  have hbyte := fun {w} (hw : w ∈ s.patchWrites) {i} (hi4 : i < 4) =>
    State.byteAt_of_patched ha hi.memory hpatched hw hi4
  have hword := fun {w} (hw : w ∈ s.patchWrites) => State.readWord_of_patched ha hi.memory hpatched hw
  obtain ⟨hlow0, hlow1, hlow2, hlow3⟩ := wordByte_append (u.lanes.l3.extractLsb' 0 8) (u.lanes.l2.extractLsb' 0 8)
    (u.lanes.l1.extractLsb' 0 8) (u.lanes.l0.extractLsb' 0 8)
  obtain ⟨hhigh0, hhigh1, hhigh2, hhigh3⟩ := wordByte_append (u.lanes.l3.extractLsb' 8 8)
    (u.lanes.l2.extractLsb' 8 8) (u.lanes.l1.extractLsb' 8 8) (u.lanes.l0.extractLsb' 8 8)
  have hlow : ∀ i < 4, u.mem.byteAt (s.imageAddr (s.len.toNat - 8 + i)) = wordByte (crcLowWord u.lanes) i := by
    intro i hi4
    rw [hlanes', ← State.imageAddr_add]
    exact hbyte (w := (s.imageAddr (s.len.toNat - 8), crcLowWord (s.bodyLanes .patch))) (by simp [State.patchWrites]) hi4
  have hhigh : ∀ i < 4, u.mem.byteAt (s.imageAddr (s.len.toNat - 4 + i)) = wordByte (crcHighWord u.lanes) i := by
    intro i hi4
    rw [hlanes', ← State.imageAddr_add]
    exact hbyte (w := (s.imageAddr (s.len.toNat - 4), crcHighWord (s.bodyLanes .patch))) (by simp [State.patchWrites]) hi4
  have hlast : u.status.last = .patch := by rw [hstatus]
  obtain ⟨hck, hcrc⟩ := hiu.no_verdicts (by simp [hlast])
  refine ⟨hacc, hpck, hlanes', by rw [hplo, hlanes'], by rw [hphi, hlanes'], hreadck, hcount, ?_, ?_, ?_,
    (hlow 0 (by decide)).trans hlow0, ?_, ?_, ?_, (hhigh 0 (by decide)).trans hhigh0, ?_, ?_, ?_, ?_⟩
  · rw [hstatus, hck, hcrc]
    exact Status.word_of_patch _
  · exact hword (w := (s.imageAddr 4, s.len)) (by simp [State.patchWrites])
  · rw [hpck]
    exact hword (w := (s.imageAddr (s.len.toNat - 12), checksumWord (s.bodySum .patch))) (by simp [State.patchWrites])
  · rw [show s.len.toNat - 7 = s.len.toNat - 8 + 1 by omega, hlow 1 (by decide)]
    exact hlow1
  · rw [show s.len.toNat - 6 = s.len.toNat - 8 + 2 by omega, hlow 2 (by decide)]
    exact hlow2
  · rw [show s.len.toNat - 5 = s.len.toNat - 8 + 3 by omega, hlow 3 (by decide)]
    exact hlow3
  · rw [show s.len.toNat - 3 = s.len.toNat - 4 + 1 by omega, hhigh 1 (by decide)]
    exact hhigh1
  · rw [show s.len.toNat - 2 = s.len.toNat - 4 + 2 by omega, hhigh 2 (by decide)]
    exact hhigh2
  · rw [show s.len.toNat - 1 = s.len.toNat - 4 + 3 by omega, hhigh 3 (by decide)]
    exact hhigh3
  · intro a hw h4 h12 h8 h4'
    have hother : ∀ w ∈ s.patchWrites, ¬ inWord w.1 a := by
      simp only [State.patchWrites, List.mem_cons, List.not_mem_nil, or_false]
      rintro w (rfl | rfl | rfl | rfl)
      exacts [h4, h12, h8, h4']
    exact (hmem a hw).trans (Memory.byteAt_writeWords_other hi.memory hother)

/-! ## A second sequence over a patched image -/

/-- `s'` stands before a sequence over the image that a PATCH from `s` has finished, untouched since. -/
structure State.OverPatched (s s' : State) : Prop where
  accepts : s.accepts .patch
  wf : s.mem.wf = true
  base : s'.base = s.base
  len : s'.len = s.len
  image : ∀ a, s.inImage a → s'.mem.byteAt a = (s.patchedMem 4).byteAt a

section
variable {s s' : State} (h : s.OverPatched s')
include h

theorem State.OverPatched.imageAddr (off : Nat) : s'.imageAddr off = s.imageAddr off := by
  rw [State.imageAddr, h.base, State.imageAddr]

theorem State.OverPatched.readWord {w : Word × Word} (hw : w ∈ s.patchWrites) : s'.mem.readWord w.1 = w.2 :=
  State.readWord_of_patched h.accepts h.wf h.image hw

/-- The body's words are those the PATCH summed: the length field now holds `N`, and no other was written. -/
theorem State.OverPatched.bodyWordAt {k : SeqKind} {j : Nat} (hj : j < s.bodyLength) :
    s'.bodyWordAt k j = s.bodyWordAt .patch j := by
  have hlen := State.twenty_le_len_of_accepts h.accepts
  have hend := State.four_mul_bodyLength h.accepts
  obtain ⟨-, -, -, hr⟩ := h.accepts
  unfold State.bodyWordAt
  rw [h.imageAddr, h.len]
  by_cases hj1 : j = 1
  · subst hj1
    have hfield : s'.mem.readWord (s.imageAddr (4 * 1)) = s.len :=
      h.readWord (w := (s.imageAddr 4, s.len)) (by simp [State.patchWrites])
    rw [hfield, ite_self, if_pos ⟨rfl, rfl⟩]
  · rw [if_neg (fun hk => hj1 hk.2), if_neg (fun hk => hj1 hk.2)]
    refine Memory.readWord_congr fun i hi => ?_
    rw [State.imageAddr_add, h.image _ (State.inImage_imageAddr hr (by omega))]
    refine Memory.byteAt_writeWords_other h.wf fun w hw => ?_
    obtain ⟨off, haddr, hle, hplace⟩ := State.patchWrites_offset h.accepts hw
    rw [haddr]
    exact State.not_inWord_imageAddr hr hle (by omega) (by omega)

theorem State.OverPatched.bodyWords (k : SeqKind) :
    s'.bodyWords k s'.bodyLength = s.bodyWords .patch s.bodyLength := by
  have hlength : s'.bodyLength = s.bodyLength := by rw [State.bodyLength, h.len, State.bodyLength]
  rw [hlength]
  exact List.map_congr_left fun j hj => h.bodyWordAt (List.mem_range.mp hj)

theorem State.OverPatched.bodySum (k : SeqKind) : s'.bodySum k = s.bodySum .patch := by
  rw [State.bodySum_eq, h.bodyWords, State.bodySum_eq]

theorem State.OverPatched.bodyLanes (k : SeqKind) : s'.bodyLanes k = s.bodyLanes .patch := by
  rw [State.bodyLanes_eq, h.bodyWords, State.bodyLanes_eq]

/-- The lanes are fed their own patch words (43_sequencer.md R207). -/
theorem State.OverPatched.verifyLanes : s'.verifyLanes = ⟨0, 0, 0, 0⟩ := by
  have hlow : s'.mem.readWord (s.imageAddr (s.len.toNat - 8)) = crcLowWord (s.bodyLanes .patch) :=
    h.readWord (w := (s.imageAddr (s.len.toNat - 8), crcLowWord (s.bodyLanes .patch))) (by simp [State.patchWrites])
  have hhigh : s'.mem.readWord (s.imageAddr (s.len.toNat - 4)) = crcHighWord (s.bodyLanes .patch) :=
    h.readWord (w := (s.imageAddr (s.len.toNat - 4), crcHighWord (s.bodyLanes .patch))) (by simp [State.patchWrites])
  rw [State.verifyLanes_eq, h.bodyLanes, h.imageAddr, h.imageAddr, h.len, hlow, hhigh,
    Lanes.feed_crcLowWord_crcHighWord]

theorem State.OverPatched.patchWrites : s'.patchWrites = s.patchWrites := by
  simp only [State.patchWrites, h.imageAddr, h.len, h.bodySum, h.bodyLanes]

end

/-- A byte is either in one of the words written, and then what it reads as does not depend on the memory before, or
it is not. -/
theorem Memory.byteAt_writeWords_cases (ws : List (Word × Word)) (x : Word) :
    (∃ b, ∀ m : Memory, m.wf = true → (m.writeWords ws).byteAt x = b)
      ∨ ∀ m : Memory, m.wf = true → (m.writeWords ws).byteAt x = m.byteAt x := by
  induction ws with
  | nil => exact .inr fun m _ => rfl
  | cons w ws ih =>
    rcases ih with ⟨b, hb⟩ | hother
    · exact .inl ⟨b, fun m hm => hb _ (Memory.wf_writeWord hm w.1 w.2)⟩
    by_cases hx : inWord w.1 x
    · obtain ⟨i, hi, rfl⟩ := inWord_iff.mp hx
      exact .inl ⟨wordByte w.2 i, fun m hm =>
        (hother _ (Memory.wf_writeWord hm w.1 w.2)).trans (Memory.byteAt_writeWord hm w.1 w.2 hi)⟩
    · exact .inr fun m hm =>
        (hother _ (Memory.wf_writeWord hm w.1 w.2)).trans (Memory.byteAt_writeWord_of_not_inWord hm w.1 w.2 hx)

/-- What a finished PATCH leaves, for a sequence after it. -/
theorem SequenceRun.overPatched {mayWrite : Word → Prop} {s t u s' : State} (hi : s.Inv)
    (himg : ∀ a, mayWrite a → ¬ s.inImage a) (ha : s.accepts .patch) (hexec : exec .patch s = .next t)
    (hrun : SequenceRun mayWrite t u) (herr : u.status.err = .none) (hbase : s'.base = s.base) (hlen : s'.len = s.len)
    (hsame : ∀ a, s.inImage a → s'.mem.byteAt a = u.mem.byteAt a) : s.OverPatched s' := by
  obtain ⟨-, hidle, hafter, -⟩ := SequenceRun.closedForm hi himg (.inr ⟨rfl, rfl⟩) ha hexec hrun herr
  have hmem := hafter.mem
  rw [hidle] at hmem
  exact ⟨ha, hi.memory, hbase, hlen, fun a hin => (hsame a hin).trans (hmem a fun hw => himg a hw hin)⟩

section
variable {s s' : State} (h : s.OverPatched s')
include h

theorem State.OverPatched.accepts_again (hb : s'.status.busy = false) : s'.accepts .verify ∧ s'.accepts .patch := by
  obtain ⟨-, hmul, hmin, hr⟩ := h.accepts
  simp only [SeqKind.minLen] at hmin
  refine ⟨⟨hb, ?_, ?_, ?_⟩, hb, ?_, ?_, ?_⟩ <;> simp only [SeqKind.minLen, h.len, h.base] <;> omega

theorem State.OverPatched.inImage_iff (a : Word) : s'.inImage a ↔ s.inImage a := by
  rw [State.inImage, h.base, h.len, State.inImage]

end

/-- Settles O58: over a patched image VERIFY sums what PATCH summed, reads the checksum word it wrote, and feeds the
lanes their own patch words. -/
theorem patchThenVerifyPasses : Obligations.PatchThenVerifyPasses := by
  unfold Obligations.PatchThenVerifyPasses
  intro mayWrite mayWrite' s t u s' t' u' hi hi' himg himg' ha hexec hrun herr hbase hlen hb' hsame hexec' hrun' herr'
  have h := SequenceRun.overPatched hi himg ha hexec hrun herr hbase hlen hsame
  obtain ⟨-, hidle, hafter, -⟩ := SequenceRun.closedForm hi' (fun a hw hin => himg' a hw ((h.inImage_iff a).mp hin))
    (.inl ⟨rfl, rfl⟩) (h.accepts_again hb').1 hexec' hrun' herr'
  obtain ⟨-, hverdicts⟩ := hafter.ended hidle
  obtain ⟨hck, hcrc⟩ := hverdicts rfl
  have hword : s'.mem.readWord (s.imageAddr (s.len.toNat - 12)) = checksumWord (s.bodySum .patch) :=
    h.readWord (w := (s.imageAddr (s.len.toNat - 12), checksumWord (s.bodySum .patch))) (by simp [State.patchWrites])
  rw [hck, hcrc, h.imageAddr, h.len, hword, h.bodySum, h.verifyLanes]
  exact ⟨decide_eq_true rfl, decide_eq_true rfl⟩

/-- Settles O59: a second PATCH writes the same words, and a byte outside them it does not write
(`Memory.byteAt_writeWords_cases`). -/
theorem secondPatchChangesNothing : Obligations.SecondPatchChangesNothing := by
  unfold Obligations.SecondPatchChangesNothing
  intro mayWrite mayWrite' s t u s' t' u' hi hi' himg himg' ha hexec hrun herr hbase hlen hb' hsame hexec' hrun' herr'
    a hin
  have h := SequenceRun.overPatched hi himg ha hexec hrun herr hbase hlen hsame
  obtain ⟨-, hidle, hafter, -⟩ := SequenceRun.closedForm hi' (fun a hw hin => himg' a hw ((h.inImage_iff a).mp hin))
    (.inr ⟨rfl, rfl⟩) (h.accepts_again hb').2 hexec' hrun' herr'
  have hmem := hafter.mem
  rw [hidle] at hmem
  have hsecond : u'.mem.byteAt a = (s'.mem.writeWords s.patchWrites).byteAt a := by
    rw [← h.patchWrites]
    exact hmem a fun hw => himg' a hw hin
  have hfirst : s'.mem.byteAt a = (s.mem.writeWords s.patchWrites).byteAt a := h.image a hin
  rw [hsecond, ← hsame a hin]
  rcases Memory.byteAt_writeWords_cases s.patchWrites a with ⟨b, hconst⟩ | hother
  · rw [hconst _ hi'.memory, hfirst, hconst _ hi.memory]
  · exact hother _ hi'.memory

end Sys2Proof.Machine
end
